-- ==== Sys2Proof/Word.lean ====
section
/-! DEFINITION. The words of the block: 32-bit registers and addresses (00_scope R9, R11), 8-bit bytes
(20_memory R80), and times, natural numbers of abstract time units (00_scope R14). -/
namespace Sys2Proof

/-- A 32-bit register or address (00_scope R9, R11). -/
abbrev Word := BitVec 32

/-- A byte of system memory (20_memory R80). -/
abbrev Byte := BitVec 8

/-- A time or a duration, in abstract time units (00_scope R14). -/
abbrev Time := Nat

end Sys2Proof
end

