-- ==== Sys2Proof/Syntax.lean ====
section
/-! DEFINITION. The operations of the block: one constructor of `Instr` per row of
spec/opcode_table.json (30_encoding R114, R115, R122), with the names of the registers (10_state R40)
and of the operands. -/
namespace Sys2Proof

/-- An exception source id as an operand holds it, 6 bits (30_encoding R115). Which of them are sources,
`s < N_SRC`, the configuration says (00_scope R10). -/
abbrev Source := Fin 64

/-- A DMA channel (41_dmac R190). -/
abbrev Chan := Fin 4

/-- A TMU channel (42_timers R242). -/
abbrev TmuChan := Fin 3

/-- The width of a bus access: 1, 2 or 4 bytes (20_memory R85). -/
inductive Width where
  | byte
  | word
  | long
  deriving DecidableEq, Repr

/-- The timer ids of 30_encoding R115: 0..3 DMA, 4..6 TMU, 7 REF, 8 RTC. -/
inductive TimerId where
  | dma (n : Chan)
  | tmu (n : TmuChan)
  | ref
  | rtc
  deriving DecidableEq, Repr

/-- The named registers of 10_state R40; `ipr r` is `IPRA`..`IPRD` for r = 0..3. -/
inductive Reg where
  | intevt
  | pvr
  | prr
  | icr
  | ipr (r : Fin 4)
  | rsvz
  | sar (n : Chan)
  | dar (n : Chan)
  | dmatcr (n : Chan)
  | chcr (n : Chan)
  | dmaor
  | bcr2
  | mcr
  | rtcsr
  | rtcnt
  | rtcor
  | rfcr
  | pctra
  | pdtra
  | pctrb
  | pdtrb
  | r64cnt
  | rseccnt
  | rmincnt
  | rhrcnt
  | rwkcnt
  | rdaycnt
  | rmoncnt
  | ryrcnt
  | rcr1
  | rcr2
  | tstr
  | tcor (n : TmuChan)
  | tcnt (n : TmuChan)
  | tcr (n : TmuChan)
  deriving DecidableEq, Repr

/-- The operations. A bus operation carries its width, the physical address as issued (it names the
register by `RegIndex` and the lane by its low bits) and, for a write, the data word as issued. -/
inductive Instr where
  /-- `REQUEST s` (40_intc R144). -/
  | request (s : Source)
  /-- `UNREQUEST s` (40_intc R145). -/
  | unrequest (s : Source)
  /-- `RECOMPUTE` (40_intc R146). -/
  | recompute
  /-- `BOUNDARY d` (40_intc R158). -/
  | boundary (d : Bool)
  /-- `RAISE s` (40_intc R160). -/
  | raise (s : Source)
  /-- `SET_IRL i, v` (40_intc R172). -/
  | setIrl (i : Fin 4) (v : Bool)
  /-- `SET_IRLN v`, `v` in two's complement (40_intc R174). -/
  | setIrln (v : Word)
  /-- `SET_NMI v` (40_intc R176). -/
  | setNmi (v : Bool)
  /-- `DMA_DATA n`; the buffer stands in the state (41_dmac R208). -/
  | dmaData (n : Chan)
  /-- `DMA_DDT n`; the record stands in the state (41_dmac R214). -/
  | dmaDdt (n : Chan)
  /-- `ADVANCE dt` (30_encoding R119). -/
  | advance (dt : Word)
  /-- `FIRE t` (30_encoding R119). -/
  | fire (t : TimerId)
  /-- `RESET` (70_reset_and_hazards R370). -/
  | reset
  | wrIntevt (w : Width) (addr data : Word)
  | rdIntevt (w : Width) (addr : Word)
  | wrPvr (w : Width) (addr data : Word)
  | rdPvr (w : Width) (addr : Word)
  | wrPrr (w : Width) (addr data : Word)
  | rdPrr (w : Width) (addr : Word)
  | wrIcr (w : Width) (addr data : Word)
  | rdIcr (w : Width) (addr : Word)
  | wrIpra (w : Width) (addr data : Word)
  | rdIpra (w : Width) (addr : Word)
  | wrIprb (w : Width) (addr data : Word)
  | rdIprb (w : Width) (addr : Word)
  | wrIprc (w : Width) (addr data : Word)
  | rdIprc (w : Width) (addr : Word)
  | wrIprd (w : Width) (addr data : Word)
  | rdIprd (w : Width) (addr : Word)
  | wrRsvz (w : Width) (addr data : Word)
  | rdRsvz (w : Width) (addr : Word)
  | wrSar0 (w : Width) (addr data : Word)
  | rdSar0 (w : Width) (addr : Word)
  | wrDar0 (w : Width) (addr data : Word)
  | rdDar0 (w : Width) (addr : Word)
  | wrDmatcr0 (w : Width) (addr data : Word)
  | rdDmatcr0 (w : Width) (addr : Word)
  | wrChcr0 (w : Width) (addr data : Word)
  | rdChcr0 (w : Width) (addr : Word)
  | wrSar1 (w : Width) (addr data : Word)
  | rdSar1 (w : Width) (addr : Word)
  | wrDar1 (w : Width) (addr data : Word)
  | rdDar1 (w : Width) (addr : Word)
  | wrDmatcr1 (w : Width) (addr data : Word)
  | rdDmatcr1 (w : Width) (addr : Word)
  | wrChcr1 (w : Width) (addr data : Word)
  | rdChcr1 (w : Width) (addr : Word)
  | wrSar2 (w : Width) (addr data : Word)
  | rdSar2 (w : Width) (addr : Word)
  | wrDar2 (w : Width) (addr data : Word)
  | rdDar2 (w : Width) (addr : Word)
  | wrDmatcr2 (w : Width) (addr data : Word)
  | rdDmatcr2 (w : Width) (addr : Word)
  | wrChcr2 (w : Width) (addr data : Word)
  | rdChcr2 (w : Width) (addr : Word)
  | wrSar3 (w : Width) (addr data : Word)
  | rdSar3 (w : Width) (addr : Word)
  | wrDar3 (w : Width) (addr data : Word)
  | rdDar3 (w : Width) (addr : Word)
  | wrDmatcr3 (w : Width) (addr data : Word)
  | rdDmatcr3 (w : Width) (addr : Word)
  | wrChcr3 (w : Width) (addr data : Word)
  | rdChcr3 (w : Width) (addr : Word)
  | wrDmaor (w : Width) (addr data : Word)
  | rdDmaor (w : Width) (addr : Word)
  | wrBcr2 (w : Width) (addr data : Word)
  | rdBcr2 (w : Width) (addr : Word)
  | wrMcr (w : Width) (addr data : Word)
  | rdMcr (w : Width) (addr : Word)
  | wrRtcsr (w : Width) (addr data : Word)
  | rdRtcsr (w : Width) (addr : Word)
  | wrRtcnt (w : Width) (addr data : Word)
  | rdRtcnt (w : Width) (addr : Word)
  | wrRtcor (w : Width) (addr data : Word)
  | rdRtcor (w : Width) (addr : Word)
  | wrRfcr (w : Width) (addr data : Word)
  | rdRfcr (w : Width) (addr : Word)
  | wrPctra (w : Width) (addr data : Word)
  | rdPctra (w : Width) (addr : Word)
  | wrPdtra (w : Width) (addr data : Word)
  | rdPdtra (w : Width) (addr : Word)
  | wrPctrb (w : Width) (addr data : Word)
  | rdPctrb (w : Width) (addr : Word)
  | wrPdtrb (w : Width) (addr data : Word)
  | rdPdtrb (w : Width) (addr : Word)
  | wrR64cnt (w : Width) (addr data : Word)
  | rdR64cnt (w : Width) (addr : Word)
  | wrRseccnt (w : Width) (addr data : Word)
  | rdRseccnt (w : Width) (addr : Word)
  | wrRmincnt (w : Width) (addr data : Word)
  | rdRmincnt (w : Width) (addr : Word)
  | wrRhrcnt (w : Width) (addr data : Word)
  | rdRhrcnt (w : Width) (addr : Word)
  | wrRwkcnt (w : Width) (addr data : Word)
  | rdRwkcnt (w : Width) (addr : Word)
  | wrRdaycnt (w : Width) (addr data : Word)
  | rdRdaycnt (w : Width) (addr : Word)
  | wrRmoncnt (w : Width) (addr data : Word)
  | rdRmoncnt (w : Width) (addr : Word)
  | wrRyrcnt (w : Width) (addr data : Word)
  | rdRyrcnt (w : Width) (addr : Word)
  | wrRcr1 (w : Width) (addr data : Word)
  | rdRcr1 (w : Width) (addr : Word)
  | wrRcr2 (w : Width) (addr data : Word)
  | rdRcr2 (w : Width) (addr : Word)
  | wrTstr (w : Width) (addr data : Word)
  | rdTstr (w : Width) (addr : Word)
  | wrTcor0 (w : Width) (addr data : Word)
  | rdTcor0 (w : Width) (addr : Word)
  | wrTcnt0 (w : Width) (addr data : Word)
  | rdTcnt0 (w : Width) (addr : Word)
  | wrTcr0 (w : Width) (addr data : Word)
  | rdTcr0 (w : Width) (addr : Word)
  | wrTcor1 (w : Width) (addr data : Word)
  | rdTcor1 (w : Width) (addr : Word)
  | wrTcnt1 (w : Width) (addr data : Word)
  | rdTcnt1 (w : Width) (addr : Word)
  | wrTcr1 (w : Width) (addr data : Word)
  | rdTcr1 (w : Width) (addr : Word)
  | wrTcor2 (w : Width) (addr data : Word)
  | rdTcor2 (w : Width) (addr : Word)
  | wrTcnt2 (w : Width) (addr data : Word)
  | rdTcnt2 (w : Width) (addr : Word)
  | wrTcr2 (w : Width) (addr data : Word)
  | rdTcr2 (w : Width) (addr : Word)
  /-- `WR.default` (43_regfile R294). -/
  | wrDefault (w : Width) (addr data : Word)
  /-- `RD.default` (43_regfile R294). -/
  | rdDefault (w : Width) (addr : Word)
  deriving DecidableEq, Repr

/-- What a bus operation accesses: a named register, or none for the two defaults. -/
structure BusAccess where
  write : Bool
  target : Option Reg
  width : Width
  addr : Word
  data : Word
  deriving DecidableEq, Repr

end Sys2Proof
end

