-- ==== Sys2Proof/Machine/RegMap.lean ====
section
/-! DEFINITION. The register map, as the configuration holds it: the named registers in their order
(10_state R40), and `RegIndex` as plain data (20_memory R81). -/
namespace Sys2Proof

/-- Every named register, in the order of 10_state R40. -/
def Reg.all : List Reg :=
  [.intevt, .pvr, .prr, .icr, .ipr 0, .ipr 1,
   .ipr 2, .ipr 3, .rsvz, .sar 0, .dar 0, .dmatcr 0,
   .chcr 0, .sar 1, .dar 1, .dmatcr 1, .chcr 1, .sar 2,
   .dar 2, .dmatcr 2, .chcr 2, .sar 3, .dar 3, .dmatcr 3,
   .chcr 3, .dmaor, .bcr2, .mcr, .rtcsr, .rtcnt,
   .rtcor, .rfcr, .pctra, .pdtra, .pctrb, .pdtrb,
   .r64cnt, .rseccnt, .rmincnt, .rhrcnt, .rwkcnt, .rdaycnt,
   .rmoncnt, .ryrcnt, .rcr1, .rcr2, .tstr, .tcor 0,
   .tcnt 0, .tcr 0, .tcor 1, .tcnt 1, .tcr 1, .tcor 2,
   .tcnt 2, .tcr 2]

/-- The place of a named register in that order. -/
def Reg.code (r : Reg) : Fin 56 :=
  match r with
  | .intevt => 0
  | .pvr => 1
  | .prr => 2
  | .icr => 3
  | .ipr k => ⟨4 + k.val, by omega⟩
  | .rsvz => 8
  | .sar n => ⟨9 + 4 * n.val, by omega⟩
  | .dar n => ⟨10 + 4 * n.val, by omega⟩
  | .dmatcr n => ⟨11 + 4 * n.val, by omega⟩
  | .chcr n => ⟨12 + 4 * n.val, by omega⟩
  | .dmaor => 25
  | .bcr2 => 26
  | .mcr => 27
  | .rtcsr => 28
  | .rtcnt => 29
  | .rtcor => 30
  | .rfcr => 31
  | .pctra => 32
  | .pdtra => 33
  | .pctrb => 34
  | .pdtrb => 35
  | .r64cnt => 36
  | .rseccnt => 37
  | .rmincnt => 38
  | .rhrcnt => 39
  | .rwkcnt => 40
  | .rdaycnt => 41
  | .rmoncnt => 42
  | .ryrcnt => 43
  | .rcr1 => 44
  | .rcr2 => 45
  | .tstr => 46
  | .tcor n => ⟨47 + 3 * n.val, by omega⟩
  | .tcnt n => ⟨48 + 3 * n.val, by omega⟩
  | .tcr n => ⟨49 + 3 * n.val, by omega⟩

/-- A function from addresses to 14-bit indices, as data. A bit-scramble is some terms (mask, shift), whose
`(addr & mask) >> shift` are joined; the addresses listed in `others` have the index that stands there, so
every function of the address is some value of this type (20_memory R81). -/
structure IndexMap where
  terms : List (Word × Nat)
  others : List (Word × BitVec 14)
  deriving DecidableEq, Repr

/-- The index of an address, 0..0x3FFF. -/
def IndexMap.value (m : IndexMap) (a : Word) : Nat :=
  match m.others.find? (fun (e : Word × BitVec 14) => e.1 == a) with
  | some e => e.2.toNat
  | none =>
    (m.terms.foldl (fun (acc : Word) (t : Word × Nat) => acc ||| ((a &&& t.1) >>> t.2)) 0).toNat % 0x4000

end Sys2Proof
end

