-- ==== Sys2Proof/Machine/Units.lean ====
section
/-! DEFINITION. The block's own state, unit by unit, as plain data (10_state R27, R42 to R53). -/
namespace Sys2Proof

/-- Increment codes 0 none, 1 increment, 2 decrement, 3 illegal (41_dmac R191). -/
inductive Inc where
  | fixed
  | increment
  | decrement
  | illegal
  deriving DecidableEq, Repr

namespace Machine

/-- `cpu.sleep` (10_state R27). -/
inductive Sleep where
  | run
  | sleeping
  | wakePending
  deriving DecidableEq, Repr

/-- `intc.prio[s]` (10_state R45). -/
structure Prio where
  level : Nat
  sub : Nat
  deriving DecidableEq, Repr

/-- The interrupt controller's own state, an entry for every value of a source operand (10_state R42 to R46). -/
structure Intc where
  requesting : Vector Bool 64
  pending : Bool
  test : Bool
  prio : Vector Prio 64
  irlLine : Vector Bool 4
  irlLevel : BitVec 4
  nmiLine : Bool
  deriving DecidableEq, Repr

/-- `dma[n].kind` (10_state R47). -/
inductive DmaKind where
  | burst
  | device
  deriving DecidableEq, Repr

/-- One DMA channel's own state (10_state R47, R48). -/
structure DmaChannel where
  active : Bool
  kind : DmaKind
  deadline : Option Time
  devSrc : Word
  devDst : Word
  devCount : Nat
  devSize : Nat
  devIncs : Inc
  devIncd : Inc
  devMode : BitVec 4
  deriving DecidableEq, Repr

/-- One TMU channel's own state (10_state R50). -/
structure TmuChannel where
  deadline : Option Time
  armedAt : Time
  deriving DecidableEq, Repr

/-- The refresh timer's own state (10_state R51). -/
structure Refresh where
  deadline : Option Time
  armedAt : Time
  base : Nat
  deriving DecidableEq, Repr

/-- The GPIO glue's own state (10_state R53). -/
structure Gpio where
  dir16 : BitVec 16
  pup16 : BitVec 16
  dir4 : BitVec 4
  pup4 : BitVec 4
  deriving DecidableEq, Repr

end Machine
end Sys2Proof
end

