-- ==== Sys2Proof/Config.lean ====
section
/-! DEFINITION. What an implementation fixes: the configuration record of 00_scope R10 (a model "takes
them as a configuration record"), and the free value. The record is plain data held in the state, so
that every statement quantifies over it; its default values stand in Machine/Tables.lean. -/
namespace Sys2Proof

/-- The parameter `ENDIAN` (20_memory R91). -/
inductive Endian where
  | little
  | big
  deriving DecidableEq, Repr

/-- `RegIndex`, `ADDR[reg]` with `ADDR_RSVZ` among them, and `REG_WINDOW` (00_scope R10). Nothing is assumed of
`RegIndex` but that it is a function of the address (20_memory R81). -/
structure RegMap where
  /-- `RegIndex` (20_memory R81). -/
  scramble : IndexMap
  /-- `ADDR`, in the order of `Reg.all` (10_state R40). -/
  addr : Vector Word 56
  /-- `REG_WINDOW`, the first and the last address of each part (20_memory R82). -/
  window : List (Word × Word)
  deriving DecidableEq, Repr

/-- The priority of a source: the fixed (level, sub), or the nibble `k` of the priority register `r` that
gives the sub-priority of a level-0 source (40_intc R152). -/
inductive SrcEntry where
  | fixed (level sub : Nat)
  | nibble (r k : Fin 4)
  deriving DecidableEq, Repr

/-- A row of `SRC_TABLE` for a source other than NMI and the lines, whose priorities 00_scope R9 gives. A row of
level 2 has a sub-priority of 0 to 10 (R9); level 3 is NMI's alone; a sub-priority is at most 16 (10_state R45). -/
inductive SrcRow where
  /-- Level 0 or 1, a fixed sub-priority. -/
  | fixed (level : Fin 2) (sub : Fin 17)
  /-- Level 2, the general faults and traps. -/
  | fault (sub : Fin 11)
  /-- Level 0, the nibble `k` of the priority register `r`. -/
  | nibble (r k : Fin 4)
  deriving DecidableEq, Repr

/-- The priority that a row gives. -/
def SrcRow.entry (e : SrcRow) : SrcEntry :=
  match e with
  | .fixed level sub => .fixed level.val sub.val
  | .fault sub => .fixed 2 sub.val
  | .nibble r k => .nibble r k

/-- `RESET_*`: the values that `RESET` installs (00_scope R10; 10_state R22, R27, R29, R40, R42 to R53). The
deadline of the real-time clock is no value of its own: it is `CYC_PER_RTC_TICK` after the reset (R52). -/
structure ResetValues where
  /-- `MD`, `RB`, `BL` and `IMASK` of the status register (10_state R22). -/
  md : Bool
  rb : Bool
  bl : Bool
  imask : BitVec 4
  /-- `cpu.sleep` (10_state R27). -/
  sleep : Machine.Sleep
  /-- The named registers that do not reset to 0, in the order in which 70_reset_and_hazards R370 assigns them: a
  later entry of a register, or of one on its cell, counts (10_state R29, R40; log 5). -/
  regs : List (Reg × Word)
  /-- 10_state R42 to R44. -/
  requesting : Vector Bool 64
  pending : Bool
  test : Bool
  /-- The sub-priority of the sources on a nibble (10_state R45). -/
  peripheralSub : Nat
  /-- 10_state R46. -/
  irlLine : Vector Bool 4
  irlLevel : BitVec 4
  nmiLine : Bool
  /-- Each DMA channel (10_state R47, R48), each TMU channel (R50), the refresh timer (R51), the GPIO glue
  (R53). -/
  dma : Machine.DmaChannel
  tmu : Machine.TmuChannel
  refresh : Machine.Refresh
  gpio : Machine.Gpio
  deriving DecidableEq, Repr

/-- The open parameters of 00_scope R10. -/
structure Config where
  /-- `RegIndex`, `ADDR[reg]`, `ADDR_RSVZ`, `REG_WINDOW`. -/
  map : RegMap
  /-- `ENDIAN`. -/
  endian : Endian
  /-- `SR_MD`, `SR_RB`, `SR_BL`: places of bits; `SR_IMASK`: the lowest bit of the field of 4. -/
  srMd : Fin 32
  srRb : Fin 32
  srBl : Fin 32
  srImask : Fin 29
  /-- `CYC_PER_BUS`, a positive integer. -/
  cycPerBus : Nat
  /-- `CYC_PER_PCLK`, a positive integer. -/
  cycPerPclk : Nat
  /-- `CYC_PER_RTC_TICK`, a positive integer. -/
  cycPerRtcTick : Nat
  /-- `TMU_DIV`, by prescaler code 0..7, 0 = does not count (42_timers R240). -/
  tmuDiv : List Nat
  /-- `MONTH_LEN`, month 1 first (42_timers R268). -/
  monthLen : List Nat
  /-- `DMA_ADDR_MASK` (20_memory R86). -/
  dmaAddrMask : Word
  /-- `DMA_BURST_DELAY(count) = burstDelayMul * count + burstDelayAdd`, but for the counts that
  `burstDelayOther` lists with their delay: every function of the 24-bit count (41_dmac R196). -/
  burstDelayMul : Nat
  burstDelayAdd : Nat
  burstDelayOther : List (Nat × Nat)
  /-- `DMA_START_REQUIRES_TE_CLEAR` (41_dmac R192). -/
  startRequiresTeClear : Bool
  /-- `DMA_WRITEBACK_ADDR` (41_dmac R196). -/
  writebackAddr : Bool
  /-- `PVR_VALUE` (43_regfile R297). -/
  pvrValue : Word
  /-- `SRC_TABLE`, its rows that are parameters: those of the source ids 0..15, and those from 36 on. The rows
  between, NMI and the lines, are the constants of 00_scope R9 (`Config.srcEntry`, log 31). -/
  srcLow : Vector SrcRow 16
  srcHigh : List SrcRow
  /-- `EVT_CODE`, by source id (60_exceptions R332). -/
  evtCode : List Word
  /-- `VEC_OFFSET`, by source id (60_exceptions R333). -/
  vecOffset : List Word
  /-- `ACK_ARG`, by source id, `NMI_ACK` among them (40_intc R163). -/
  ackArg : List Word
  /-- `RESET_*`. -/
  reset : ResetValues
  deriving DecidableEq, Repr

/-- `N_SRC`, the number of sources (40_intc R152). -/
abbrev Config.nSrc (c : Config) : Nat := 36 + c.srcHigh.length

/-- The three tick parameters are positive (42_timers R240). -/
abbrev Config.positive (c : Config) : Prop :=
  0 < c.cycPerBus ∧ 0 < c.cycPerPclk ∧ 0 < c.cycPerRtcTick

/-- FREE VALUE. The word that a raw `DMA_DDT` takes from a position beyond the host buffer it was
handed: the spec gives none (41_dmac R214, log 16). Nothing is known of it. -/
opaque Config.freeBufferWord : Nat → BitVec 64

end Sys2Proof
end

