-- ==== Sys2Proof/Machine/Tables.lean ====
section
/-! DEFINITION. The default parameters of 00_scope R10: the source table, the event codes, the vector
offsets, the acknowledge arguments, the register map, the reset values and the default configuration. -/
namespace Sys2Proof.Machine
open Sys2Proof

/-- `SRC_TABLE`, the sources 0..15: the resets and errors of level 1, the general faults of level 2
(40_intc R152). -/
def defaultSrcLow : Vector SrcRow 16 :=
  #v[.fixed 1 0, .fixed 1 1, .fixed 1 2, .fixed 1 3, .fixed 1 4, .fault 0, .fault 1, .fault 2,
     .fault 3, .fault 4, .fault 5, .fault 6, .fault 7, .fault 8, .fault 9, .fault 10]

/-- `SRC_TABLE`, the peripheral sources 36..51 on the nibbles of `IPRA`..`IPRD`, so that `N_SRC` = 52
(40_intc R152). -/
def defaultSrcHigh : List SrcRow :=
  [.nibble 0 3, .nibble 0 2, .nibble 0 1, .nibble 0 0, .nibble 1 3, .nibble 1 2, .nibble 1 1, .nibble 1 0,
   .nibble 2 3, .nibble 2 2, .nibble 2 1, .nibble 2 0, .nibble 3 3, .nibble 3 2, .nibble 3 1, .nibble 3 0]

/-- `EVT_CODE` by source id (60_exceptions R332). -/
def defaultEvtCode : List Word :=
  [0x000, 0x020, 0x000, 0x140, 0x140, 0x1E0, 0x0E0, 0x040, 0x0A0, 0x180,
   0x0E0, 0x040, 0x0A0, 0x120, 0x080, 0x1E0, 0x1C0, 0x200, 0x220, 0x240,
   0x260, 0x280, 0x2A0, 0x2C0, 0x2E0, 0x300, 0x320, 0x340, 0x360, 0x380,
   0x3A0, 0x3C0, 0x240, 0x2A0, 0x300, 0x360, 0x400, 0x420, 0x440, 0x4C0,
   0x560, 0x580, 0x5A0, 0x620, 0x640, 0x660, 0x680, 0x6A0, 0x6C0, 0x4E0,
   0x700, 0x600]

/-- `VEC_OFFSET` by source id: 0x400 for 7 and 11, 0x100 for the others below 16, 0x600 from 16 on
(60_exceptions R333). -/
def defaultVecOffset : List Word :=
  [0x100, 0x100, 0x100, 0x100, 0x100, 0x100, 0x100, 0x400, 0x100, 0x100,
   0x100, 0x400, 0x100, 0x100, 0x100, 0x100, 0x600, 0x600, 0x600, 0x600,
   0x600, 0x600, 0x600, 0x600, 0x600, 0x600, 0x600, 0x600, 0x600, 0x600,
   0x600, 0x600, 0x600, 0x600, 0x600, 0x600, 0x600, 0x600, 0x600, 0x600,
   0x600, 0x600, 0x600, 0x600, 0x600, 0x600, 0x600, 0x600, 0x600, 0x600,
   0x600, 0x600]

/-- `ACK_ARG` by source id: the line number for the discrete lines 32..35, `NMI_ACK` = 32 for 16, 4 for
the others (40_intc R163). -/
def defaultAckArg : List Word :=
  [4, 4, 4, 4, 4, 4, 4, 4, 4, 4, 4, 4, 4,
   4, 4, 4, 32, 4, 4, 4, 4, 4, 4, 4, 4, 4,
   4, 4, 4, 4, 4, 4, 0, 1, 2, 3, 4, 4, 4,
   4, 4, 4, 4, 4, 4, 4, 4, 4, 4, 4, 4, 4]

/-- `ADDR[reg]` (10_state R40; `ADDR_RSVZ` = 0xFFD00014). -/
def defaultAddr : Reg → Word
  | .intevt => 0xFF000028
  | .pvr => 0xFF000030
  | .prr => 0xFF000044
  | .icr => 0xFFD00000
  | .ipr r => 0xFFD00004 + BitVec.ofNat 32 (4 * r.val)
  | .rsvz => 0xFFD00014
  | .sar n => 0xFFA00000 + BitVec.ofNat 32 (0x10 * n.val)
  | .dar n => 0xFFA00004 + BitVec.ofNat 32 (0x10 * n.val)
  | .dmatcr n => 0xFFA00008 + BitVec.ofNat 32 (0x10 * n.val)
  | .chcr n => 0xFFA0000C + BitVec.ofNat 32 (0x10 * n.val)
  | .dmaor => 0xFFA00040
  | .bcr2 => 0xFF800004
  | .mcr => 0xFF800014
  | .rtcsr => 0xFF80001C
  | .rtcnt => 0xFF800020
  | .rtcor => 0xFF800024
  | .rfcr => 0xFF800028
  | .pctra => 0xFF80002C
  | .pdtra => 0xFF800030
  | .pctrb => 0xFF800040
  | .pdtrb => 0xFF800044
  | .r64cnt => 0xFFC80000
  | .rseccnt => 0xFFC80004
  | .rmincnt => 0xFFC80008
  | .rhrcnt => 0xFFC8000C
  | .rwkcnt => 0xFFC80010
  | .rdaycnt => 0xFFC80014
  | .rmoncnt => 0xFFC80018
  | .ryrcnt => 0xFFC8001C
  | .rcr1 => 0xFFC80038
  | .rcr2 => 0xFFC8003C
  | .tstr => 0xFFD80004
  | .tcor n => 0xFFD80008 + BitVec.ofNat 32 (0xC * n.val)
  | .tcnt n => 0xFFD8000C + BitVec.ofNat 32 (0xC * n.val)
  | .tcr n => 0xFFD80010 + BitVec.ofNat 32 (0xC * n.val)

/-- `RegIndex(addr) = ((addr & 0xFC) >> 2) | ((addr & 0x01FE0000) >> 11)` (20_memory R81). -/
def defaultScramble : IndexMap where
  terms := [(0xFC, 2), (0x01FE0000, 11)]
  others := []

/-- The default `RegIndex`, `ADDR` and `REG_WINDOW`: 0xFE000000..0xFFFFFFFF and its mirror
0x1E000000..0x1FFFFFFF (20_memory R82). -/
def defaultMap : RegMap where
  scramble := defaultScramble
  addr := ⟨(Reg.all.map defaultAddr).toArray, rfl⟩
  window := [(0xFE000000, 0xFFFFFFFF), (0x1E000000, 0x1FFFFFFF)]

/-- The default reset values (10_state R22, R27, R29, R40, R42 to R53; 70_reset_and_hazards R370). -/
def defaultReset : ResetValues where
  md := true
  rb := true
  bl := true
  imask := 15
  sleep := .run
  regs := [(.rcr2, 0x09), (.tcor 0, 0xFFFFFFFF), (.tcnt 0, 0xFFFFFFFF), (.tcor 1, 0xFFFFFFFF),
    (.tcnt 1, 0xFFFFFFFF), (.tcor 2, 0xFFFFFFFF), (.tcnt 2, 0xFFFFFFFF)]
  requesting := Vector.replicate 64 false
  pending := false
  test := false
  peripheralSub := 0
  irlLine := Vector.replicate 4 false
  irlLevel := 15
  nmiLine := false
  dma :=
    { active := false, kind := .burst, deadline := none, devSrc := 0, devDst := 0, devCount := 0
      devSize := 0, devIncs := .fixed, devIncd := .fixed, devMode := 0 }
  tmu := { deadline := none, armedAt := 0 }
  refresh := { deadline := none, armedAt := 0, base := 0 }
  gpio := { dir16 := 0, pup16 := 0xFFFF, dir4 := 0, pup4 := 0xF }

/-- The defaults of 00_scope R10, with the three tick parameters 1 as in the spec's examples
(92_eei_decisions D2). -/
def defaultConfig : Config where
  map := defaultMap
  endian := .little
  srMd := 30
  srRb := 29
  srBl := 28
  srImask := 4
  cycPerBus := 1
  cycPerPclk := 1
  cycPerRtcTick := 1
  tmuDiv := [4, 16, 64, 256, 1024, 0, 0, 0]
  monthLen := [31, 28, 31, 30, 31, 30, 31, 31, 30, 31, 30, 31]
  dmaAddrMask := 0x1FFFFFFF
  burstDelayMul := 2
  burstDelayAdd := 1
  burstDelayOther := []
  startRequiresTeClear := true
  writebackAddr := false
  pvrValue := 0x040205C1
  srcLow := defaultSrcLow
  srcHigh := defaultSrcHigh
  evtCode := defaultEvtCode
  vecOffset := defaultVecOffset
  ackArg := defaultAckArg
  reset := defaultReset

/-- `REF_DIV` by `RTCSR.CKS`, 0 = stopped (42_timers R240). -/
def refDiv (cks : BitVec 3) : Nat := [0, 4, 16, 64, 256, 1024, 2048, 4096].getD cks.toNat 0

end Sys2Proof.Machine
end

