-- ==== Sys2Proof/Machine/Operands.lean ====
section
/-! DEFINITION. The operand forms of the bus operations: the cell of each named register
(10_state R40, 20_memory R81), the register window (R82), the access widths
with their lane mask and shift (R85), the bit-field helpers (00_scope R11), and the address arithmetic
of the DMA units (20_memory R86, 41_dmac R200). -/
namespace Sys2Proof

/-! ## Bits and fields (00_scope R11) -/

/-- `v[i]`. -/
def bit (v : Word) (i : Nat) : Bool := v.getLsbD i

/-- `v[hi:lo]` with `n = hi - lo + 1` bits. -/
def field (v : Word) (lo n : Nat) : BitVec n := v.extractLsb' lo n

/-- `v` with bit `i` set to `b`. -/
def putBit (v : Word) (i : Nat) (b : Bool) : Word :=
  if b then v ||| ((1 : Word) <<< i) else v &&& ~~~((1 : Word) <<< i)

/-- `v` with its `n` bits from `lo` set to `x`. -/
def putField {n : Nat} (v : Word) (lo : Nat) (x : BitVec n) : Word :=
  (v &&& ~~~((BitVec.allOnes n).setWidth 32 <<< lo)) ||| (x.setWidth 32 <<< lo)

/-! ## The register map (20_memory R81, 10_state R40) -/

/-- `RegIndex(addr)`, the index of a cell, 0..0x3FFF. -/
def regIndex (cfg : Config) (a : Word) : Nat := cfg.map.scramble.value a

/-- `ADDR[reg]` (10_state R40). -/
def Config.addrOf (cfg : Config) (r : Reg) : Word := cfg.map.addr[r.code]

/-- The index of a named register's cell, `RegIndex(ADDR[reg])`. -/
def Config.index (cfg : Config) (r : Reg) : Nat := regIndex cfg (cfg.addrOf r)

/-- No two named registers have one index. "The register" of an index (43_regfile R290) supposes it, the
model does not: parameters may put two registers on one cell. -/
def Config.separate (cfg : Config) : Bool := decide (Reg.all.map cfg.index).Nodup

/-- The register `REG` with `RegIndex(ADDR[REG]) = i`, if any (43_regfile R290, step 3); of several, the first
of 10_state R40 (DESIGN CHOICE, log 5). -/
def Config.ofIndex (cfg : Config) (i : Nat) : Option Reg := Reg.all.find? (fun r => cfg.index r == i)

/-! ## The bus access of an operation (30_encoding R114) -/

/-- The bus access of a format B operation, none for a port operation (30_encoding R114). -/
def Instr.busAccess (i : Instr) : Option BusAccess :=
  match i with
  | .request _ => none
  | .unrequest _ => none
  | .recompute => none
  | .boundary _ => none
  | .raise _ => none
  | .setIrl _ _ => none
  | .setIrln _ => none
  | .setNmi _ => none
  | .dmaData _ => none
  | .dmaDdt _ => none
  | .advance _ => none
  | .fire _ => none
  | .reset => none
  | .wrIntevt w a d => some ⟨true, some (.intevt), w, a, d⟩
  | .rdIntevt w a => some ⟨false, some (.intevt), w, a, 0⟩
  | .wrPvr w a d => some ⟨true, some (.pvr), w, a, d⟩
  | .rdPvr w a => some ⟨false, some (.pvr), w, a, 0⟩
  | .wrPrr w a d => some ⟨true, some (.prr), w, a, d⟩
  | .rdPrr w a => some ⟨false, some (.prr), w, a, 0⟩
  | .wrIcr w a d => some ⟨true, some (.icr), w, a, d⟩
  | .rdIcr w a => some ⟨false, some (.icr), w, a, 0⟩
  | .wrIpra w a d => some ⟨true, some (.ipr 0), w, a, d⟩
  | .rdIpra w a => some ⟨false, some (.ipr 0), w, a, 0⟩
  | .wrIprb w a d => some ⟨true, some (.ipr 1), w, a, d⟩
  | .rdIprb w a => some ⟨false, some (.ipr 1), w, a, 0⟩
  | .wrIprc w a d => some ⟨true, some (.ipr 2), w, a, d⟩
  | .rdIprc w a => some ⟨false, some (.ipr 2), w, a, 0⟩
  | .wrIprd w a d => some ⟨true, some (.ipr 3), w, a, d⟩
  | .rdIprd w a => some ⟨false, some (.ipr 3), w, a, 0⟩
  | .wrRsvz w a d => some ⟨true, some (.rsvz), w, a, d⟩
  | .rdRsvz w a => some ⟨false, some (.rsvz), w, a, 0⟩
  | .wrSar0 w a d => some ⟨true, some (.sar 0), w, a, d⟩
  | .rdSar0 w a => some ⟨false, some (.sar 0), w, a, 0⟩
  | .wrDar0 w a d => some ⟨true, some (.dar 0), w, a, d⟩
  | .rdDar0 w a => some ⟨false, some (.dar 0), w, a, 0⟩
  | .wrDmatcr0 w a d => some ⟨true, some (.dmatcr 0), w, a, d⟩
  | .rdDmatcr0 w a => some ⟨false, some (.dmatcr 0), w, a, 0⟩
  | .wrChcr0 w a d => some ⟨true, some (.chcr 0), w, a, d⟩
  | .rdChcr0 w a => some ⟨false, some (.chcr 0), w, a, 0⟩
  | .wrSar1 w a d => some ⟨true, some (.sar 1), w, a, d⟩
  | .rdSar1 w a => some ⟨false, some (.sar 1), w, a, 0⟩
  | .wrDar1 w a d => some ⟨true, some (.dar 1), w, a, d⟩
  | .rdDar1 w a => some ⟨false, some (.dar 1), w, a, 0⟩
  | .wrDmatcr1 w a d => some ⟨true, some (.dmatcr 1), w, a, d⟩
  | .rdDmatcr1 w a => some ⟨false, some (.dmatcr 1), w, a, 0⟩
  | .wrChcr1 w a d => some ⟨true, some (.chcr 1), w, a, d⟩
  | .rdChcr1 w a => some ⟨false, some (.chcr 1), w, a, 0⟩
  | .wrSar2 w a d => some ⟨true, some (.sar 2), w, a, d⟩
  | .rdSar2 w a => some ⟨false, some (.sar 2), w, a, 0⟩
  | .wrDar2 w a d => some ⟨true, some (.dar 2), w, a, d⟩
  | .rdDar2 w a => some ⟨false, some (.dar 2), w, a, 0⟩
  | .wrDmatcr2 w a d => some ⟨true, some (.dmatcr 2), w, a, d⟩
  | .rdDmatcr2 w a => some ⟨false, some (.dmatcr 2), w, a, 0⟩
  | .wrChcr2 w a d => some ⟨true, some (.chcr 2), w, a, d⟩
  | .rdChcr2 w a => some ⟨false, some (.chcr 2), w, a, 0⟩
  | .wrSar3 w a d => some ⟨true, some (.sar 3), w, a, d⟩
  | .rdSar3 w a => some ⟨false, some (.sar 3), w, a, 0⟩
  | .wrDar3 w a d => some ⟨true, some (.dar 3), w, a, d⟩
  | .rdDar3 w a => some ⟨false, some (.dar 3), w, a, 0⟩
  | .wrDmatcr3 w a d => some ⟨true, some (.dmatcr 3), w, a, d⟩
  | .rdDmatcr3 w a => some ⟨false, some (.dmatcr 3), w, a, 0⟩
  | .wrChcr3 w a d => some ⟨true, some (.chcr 3), w, a, d⟩
  | .rdChcr3 w a => some ⟨false, some (.chcr 3), w, a, 0⟩
  | .wrDmaor w a d => some ⟨true, some (.dmaor), w, a, d⟩
  | .rdDmaor w a => some ⟨false, some (.dmaor), w, a, 0⟩
  | .wrBcr2 w a d => some ⟨true, some (.bcr2), w, a, d⟩
  | .rdBcr2 w a => some ⟨false, some (.bcr2), w, a, 0⟩
  | .wrMcr w a d => some ⟨true, some (.mcr), w, a, d⟩
  | .rdMcr w a => some ⟨false, some (.mcr), w, a, 0⟩
  | .wrRtcsr w a d => some ⟨true, some (.rtcsr), w, a, d⟩
  | .rdRtcsr w a => some ⟨false, some (.rtcsr), w, a, 0⟩
  | .wrRtcnt w a d => some ⟨true, some (.rtcnt), w, a, d⟩
  | .rdRtcnt w a => some ⟨false, some (.rtcnt), w, a, 0⟩
  | .wrRtcor w a d => some ⟨true, some (.rtcor), w, a, d⟩
  | .rdRtcor w a => some ⟨false, some (.rtcor), w, a, 0⟩
  | .wrRfcr w a d => some ⟨true, some (.rfcr), w, a, d⟩
  | .rdRfcr w a => some ⟨false, some (.rfcr), w, a, 0⟩
  | .wrPctra w a d => some ⟨true, some (.pctra), w, a, d⟩
  | .rdPctra w a => some ⟨false, some (.pctra), w, a, 0⟩
  | .wrPdtra w a d => some ⟨true, some (.pdtra), w, a, d⟩
  | .rdPdtra w a => some ⟨false, some (.pdtra), w, a, 0⟩
  | .wrPctrb w a d => some ⟨true, some (.pctrb), w, a, d⟩
  | .rdPctrb w a => some ⟨false, some (.pctrb), w, a, 0⟩
  | .wrPdtrb w a d => some ⟨true, some (.pdtrb), w, a, d⟩
  | .rdPdtrb w a => some ⟨false, some (.pdtrb), w, a, 0⟩
  | .wrR64cnt w a d => some ⟨true, some (.r64cnt), w, a, d⟩
  | .rdR64cnt w a => some ⟨false, some (.r64cnt), w, a, 0⟩
  | .wrRseccnt w a d => some ⟨true, some (.rseccnt), w, a, d⟩
  | .rdRseccnt w a => some ⟨false, some (.rseccnt), w, a, 0⟩
  | .wrRmincnt w a d => some ⟨true, some (.rmincnt), w, a, d⟩
  | .rdRmincnt w a => some ⟨false, some (.rmincnt), w, a, 0⟩
  | .wrRhrcnt w a d => some ⟨true, some (.rhrcnt), w, a, d⟩
  | .rdRhrcnt w a => some ⟨false, some (.rhrcnt), w, a, 0⟩
  | .wrRwkcnt w a d => some ⟨true, some (.rwkcnt), w, a, d⟩
  | .rdRwkcnt w a => some ⟨false, some (.rwkcnt), w, a, 0⟩
  | .wrRdaycnt w a d => some ⟨true, some (.rdaycnt), w, a, d⟩
  | .rdRdaycnt w a => some ⟨false, some (.rdaycnt), w, a, 0⟩
  | .wrRmoncnt w a d => some ⟨true, some (.rmoncnt), w, a, d⟩
  | .rdRmoncnt w a => some ⟨false, some (.rmoncnt), w, a, 0⟩
  | .wrRyrcnt w a d => some ⟨true, some (.ryrcnt), w, a, d⟩
  | .rdRyrcnt w a => some ⟨false, some (.ryrcnt), w, a, 0⟩
  | .wrRcr1 w a d => some ⟨true, some (.rcr1), w, a, d⟩
  | .rdRcr1 w a => some ⟨false, some (.rcr1), w, a, 0⟩
  | .wrRcr2 w a d => some ⟨true, some (.rcr2), w, a, d⟩
  | .rdRcr2 w a => some ⟨false, some (.rcr2), w, a, 0⟩
  | .wrTstr w a d => some ⟨true, some (.tstr), w, a, d⟩
  | .rdTstr w a => some ⟨false, some (.tstr), w, a, 0⟩
  | .wrTcor0 w a d => some ⟨true, some (.tcor 0), w, a, d⟩
  | .rdTcor0 w a => some ⟨false, some (.tcor 0), w, a, 0⟩
  | .wrTcnt0 w a d => some ⟨true, some (.tcnt 0), w, a, d⟩
  | .rdTcnt0 w a => some ⟨false, some (.tcnt 0), w, a, 0⟩
  | .wrTcr0 w a d => some ⟨true, some (.tcr 0), w, a, d⟩
  | .rdTcr0 w a => some ⟨false, some (.tcr 0), w, a, 0⟩
  | .wrTcor1 w a d => some ⟨true, some (.tcor 1), w, a, d⟩
  | .rdTcor1 w a => some ⟨false, some (.tcor 1), w, a, 0⟩
  | .wrTcnt1 w a d => some ⟨true, some (.tcnt 1), w, a, d⟩
  | .rdTcnt1 w a => some ⟨false, some (.tcnt 1), w, a, 0⟩
  | .wrTcr1 w a d => some ⟨true, some (.tcr 1), w, a, d⟩
  | .rdTcr1 w a => some ⟨false, some (.tcr 1), w, a, 0⟩
  | .wrTcor2 w a d => some ⟨true, some (.tcor 2), w, a, d⟩
  | .rdTcor2 w a => some ⟨false, some (.tcor 2), w, a, 0⟩
  | .wrTcnt2 w a d => some ⟨true, some (.tcnt 2), w, a, d⟩
  | .rdTcnt2 w a => some ⟨false, some (.tcnt 2), w, a, 0⟩
  | .wrTcr2 w a d => some ⟨true, some (.tcr 2), w, a, d⟩
  | .rdTcr2 w a => some ⟨false, some (.tcr 2), w, a, 0⟩
  | .wrDefault w a d => some ⟨true, none, w, a, d⟩
  | .rdDefault w a => some ⟨false, none, w, a, 0⟩

/-- The write operation of a named register (30_encoding R114). -/
def Instr.ofWrite (w : Width) (a d : Word) (r : Reg) : Instr :=
  match r with
  | .intevt => .wrIntevt w a d
  | .pvr => .wrPvr w a d
  | .prr => .wrPrr w a d
  | .icr => .wrIcr w a d
  | .ipr 0 => .wrIpra w a d
  | .ipr 1 => .wrIprb w a d
  | .ipr 2 => .wrIprc w a d
  | .ipr 3 => .wrIprd w a d
  | .rsvz => .wrRsvz w a d
  | .sar 0 => .wrSar0 w a d
  | .dar 0 => .wrDar0 w a d
  | .dmatcr 0 => .wrDmatcr0 w a d
  | .chcr 0 => .wrChcr0 w a d
  | .sar 1 => .wrSar1 w a d
  | .dar 1 => .wrDar1 w a d
  | .dmatcr 1 => .wrDmatcr1 w a d
  | .chcr 1 => .wrChcr1 w a d
  | .sar 2 => .wrSar2 w a d
  | .dar 2 => .wrDar2 w a d
  | .dmatcr 2 => .wrDmatcr2 w a d
  | .chcr 2 => .wrChcr2 w a d
  | .sar 3 => .wrSar3 w a d
  | .dar 3 => .wrDar3 w a d
  | .dmatcr 3 => .wrDmatcr3 w a d
  | .chcr 3 => .wrChcr3 w a d
  | .dmaor => .wrDmaor w a d
  | .bcr2 => .wrBcr2 w a d
  | .mcr => .wrMcr w a d
  | .rtcsr => .wrRtcsr w a d
  | .rtcnt => .wrRtcnt w a d
  | .rtcor => .wrRtcor w a d
  | .rfcr => .wrRfcr w a d
  | .pctra => .wrPctra w a d
  | .pdtra => .wrPdtra w a d
  | .pctrb => .wrPctrb w a d
  | .pdtrb => .wrPdtrb w a d
  | .r64cnt => .wrR64cnt w a d
  | .rseccnt => .wrRseccnt w a d
  | .rmincnt => .wrRmincnt w a d
  | .rhrcnt => .wrRhrcnt w a d
  | .rwkcnt => .wrRwkcnt w a d
  | .rdaycnt => .wrRdaycnt w a d
  | .rmoncnt => .wrRmoncnt w a d
  | .ryrcnt => .wrRyrcnt w a d
  | .rcr1 => .wrRcr1 w a d
  | .rcr2 => .wrRcr2 w a d
  | .tstr => .wrTstr w a d
  | .tcor 0 => .wrTcor0 w a d
  | .tcnt 0 => .wrTcnt0 w a d
  | .tcr 0 => .wrTcr0 w a d
  | .tcor 1 => .wrTcor1 w a d
  | .tcnt 1 => .wrTcnt1 w a d
  | .tcr 1 => .wrTcr1 w a d
  | .tcor 2 => .wrTcor2 w a d
  | .tcnt 2 => .wrTcnt2 w a d
  | .tcr 2 => .wrTcr2 w a d

/-- The read operation of a named register (30_encoding R114). -/
def Instr.ofRead (w : Width) (a : Word) (r : Reg) : Instr :=
  match r with
  | .intevt => .rdIntevt w a
  | .pvr => .rdPvr w a
  | .prr => .rdPrr w a
  | .icr => .rdIcr w a
  | .ipr 0 => .rdIpra w a
  | .ipr 1 => .rdIprb w a
  | .ipr 2 => .rdIprc w a
  | .ipr 3 => .rdIprd w a
  | .rsvz => .rdRsvz w a
  | .sar 0 => .rdSar0 w a
  | .dar 0 => .rdDar0 w a
  | .dmatcr 0 => .rdDmatcr0 w a
  | .chcr 0 => .rdChcr0 w a
  | .sar 1 => .rdSar1 w a
  | .dar 1 => .rdDar1 w a
  | .dmatcr 1 => .rdDmatcr1 w a
  | .chcr 1 => .rdChcr1 w a
  | .sar 2 => .rdSar2 w a
  | .dar 2 => .rdDar2 w a
  | .dmatcr 2 => .rdDmatcr2 w a
  | .chcr 2 => .rdChcr2 w a
  | .sar 3 => .rdSar3 w a
  | .dar 3 => .rdDar3 w a
  | .dmatcr 3 => .rdDmatcr3 w a
  | .chcr 3 => .rdChcr3 w a
  | .dmaor => .rdDmaor w a
  | .bcr2 => .rdBcr2 w a
  | .mcr => .rdMcr w a
  | .rtcsr => .rdRtcsr w a
  | .rtcnt => .rdRtcnt w a
  | .rtcor => .rdRtcor w a
  | .rfcr => .rdRfcr w a
  | .pctra => .rdPctra w a
  | .pdtra => .rdPdtra w a
  | .pctrb => .rdPctrb w a
  | .pdtrb => .rdPdtrb w a
  | .r64cnt => .rdR64cnt w a
  | .rseccnt => .rdRseccnt w a
  | .rmincnt => .rdRmincnt w a
  | .rhrcnt => .rdRhrcnt w a
  | .rwkcnt => .rdRwkcnt w a
  | .rdaycnt => .rdRdaycnt w a
  | .rmoncnt => .rdRmoncnt w a
  | .ryrcnt => .rdRyrcnt w a
  | .rcr1 => .rdRcr1 w a
  | .rcr2 => .rdRcr2 w a
  | .tstr => .rdTstr w a
  | .tcor 0 => .rdTcor0 w a
  | .tcnt 0 => .rdTcnt0 w a
  | .tcr 0 => .rdTcr0 w a
  | .tcor 1 => .rdTcor1 w a
  | .tcnt 1 => .rdTcnt1 w a
  | .tcr 1 => .rdTcr1 w a
  | .tcor 2 => .rdTcor2 w a
  | .tcnt 2 => .rdTcnt2 w a
  | .tcr 2 => .rdTcr2 w a

/-! ## Window, widths and lanes (20_memory R82, R85) -/

/-- `addr` lies in `REG_WINDOW` (20_memory R82). -/
def inWindow (cfg : Config) (a : Word) : Bool :=
  cfg.map.window.any fun w => decide (w.1.toNat ≤ a.toNat) && decide (a.toNat ≤ w.2.toNat)

/-- The width in bytes. -/
def Width.bytes (w : Width) : Nat :=
  match w with
  | .byte => 1
  | .word => 2
  | .long => 4

/-- The width code `wc` (30_encoding R114). -/
def Width.code (w : Width) : BitVec 2 :=
  match w with
  | .byte => 0
  | .word => 1
  | .long => 2

/-- `k = addr[1:0]`. -/
def laneOf (a : Word) : Nat := (field a 0 2).toNat

/-- The `k` each width allows: any for a byte, 0 or 2 for a word, 0 for a longword (20_memory R85). -/
def laneOk (w : Width) (a : Word) : Bool :=
  match w with
  | .byte => true
  | .word => laneOf a % 2 == 0
  | .long => laneOf a == 0

/-- `shift` in bits: `8k` little, `8(4 - bytes - k)` big (20_memory R85). -/
def laneShift (e : Endian) (w : Width) (a : Word) : Nat :=
  match e with
  | .little => 8 * laneOf a
  | .big => 8 * (4 - w.bytes - laneOf a)

/-- `mask`: the bits of the lane (20_memory R85). -/
def laneMask (e : Endian) (w : Width) (a : Word) : Word :=
  let ones : Word := match w with
    | .byte => 0xFF
    | .word => 0xFFFF
    | .long => 0xFFFFFFFF
  ones <<< laneShift e w a

/-- The cell after a write: `(m[i] & ~mask) | ((data << shift) & mask)` (43_regfile R292). -/
def laneMerge (e : Endian) (w : Width) (a old data : Word) : Word :=
  (old &&& ~~~(laneMask e w a)) ||| ((data <<< laneShift e w a) &&& laneMask e w a)

/-- The answer of a read: `(value & mask) >> shift` (43_regfile R293). -/
def laneRead (e : Endian) (w : Width) (a value : Word) : Word :=
  (value &&& laneMask e w a) >>> laneShift e w a

/-! ## Addresses of DMA units (20_memory R86, 41_dmac R191, R200) -/

/-- The increment of a code. -/
def Inc.ofCode (c : BitVec 2) : Inc :=
  if c = 0 then .fixed else if c = 1 then .increment else if c = 2 then .decrement else .illegal

/-- `SIZE = [8, 1, 2, 4, 32, 0, 0, 0]` by `CHCRn.TS`, 0 for reserved (41_dmac R191). -/
def unitSize (ts : BitVec 3) : Nat := [8, 1, 2, 4, 32, 0, 0, 0].getD ts.toNat 0

/-- `(a & DMA_ADDR_MASK) & ~(z - 1)` (20_memory R86). -/
def dmaAlign (mask a : Word) (z : Nat) : Word := (a &&& mask) &&& ~~~(BitVec.ofNat 32 (z - 1))

/-- The address of unit `k` (from 0) of a run that starts at `base`: a decrement comes before the
access, an increment after it, modulo 2^32 (41_dmac R200). -/
def unitAddr (base : Word) (z : Nat) (inc : Inc) (k : Nat) : Word :=
  match inc with
  | .fixed => base
  | .increment => base + BitVec.ofNat 32 (k * z)
  | .decrement => base - BitVec.ofNat 32 ((k + 1) * z)
  | .illegal => base

/-- The address after a run of `cnt` units (41_dmac R200). -/
def endAddr (base : Word) (z : Nat) (inc : Inc) (cnt : Nat) : Word :=
  match inc with
  | .fixed => base
  | .increment => base + BitVec.ofNat 32 (cnt * z)
  | .decrement => base - BitVec.ofNat 32 (cnt * z)
  | .illegal => base

/-- Some of the `cnt` addresses `lo`, `lo + z`, .. lies, modulo 2^32, in `REG_WINDOW`: in each window the first
of them that is not below it is tested. -/
def spanMeetsWindow (cfg : Config) (lo z cnt : Nat) : Bool :=
  cfg.map.window.any fun w => [0, 0x100000000].any fun turn =>
    let k := (w.1.toNat + turn - lo + (z - 1)) / z
    decide (k < cnt) && decide (lo + k * z ≤ w.2.toNat + turn)

/-- The offsets of the accesses that a unit of `z` bytes is made of: a 32-byte unit is four of 8 bytes
(20_memory R84). -/
def accessOffsets (z : Nat) : List Nat := if z = 32 then [0, 8, 16, 24] else [0]

/-- Some access of the unit of `z` bytes at `a` has its address in `REG_WINDOW`, which gives it no meaning
(20_memory R82). -/
def unitMeetsWindow (cfg : Config) (a : Word) (z : Nat) : Bool :=
  (accessOffsets z).any fun j => inWindow cfg (a + BitVec.ofNat 32 j)

/-- Some address of a run, `z` bytes apart, lies in `REG_WINDOW`. The test does not walk the run. -/
def strideMeetsWindow (cfg : Config) (base : Word) (z : Nat) (inc : Inc) (cnt : Nat) : Bool :=
  match inc with
  | .fixed => decide (0 < cnt) && inWindow cfg base
  | .increment => spanMeetsWindow cfg base.toNat z cnt
  | .decrement => spanMeetsWindow cfg (base.toNat + 0x100000000 - cnt * z) z cnt
  | .illegal => decide (0 < cnt) && inWindow cfg base

/-- Some access of some unit of a run has its address in `REG_WINDOW` (20_memory R82, R84): the accesses at one
offset within their units are a run of their own. -/
def runMeetsWindow (cfg : Config) (base : Word) (z : Nat) (inc : Inc) (cnt : Nat) : Bool :=
  (accessOffsets z).any fun j => strideMeetsWindow cfg (base + BitVec.ofNat 32 j) z inc cnt

end Sys2Proof
end

