-- ==== Sys2Proof/WellFormed.lean ====
section
/-! DEFINITION. Well-formed operations: those that 30_encoding R117 and 20_memory R85 do not refuse
whatever the state is. -/
namespace Sys2Proof

/-- The address lies in the register window (30_encoding R117). -/
def BusAccess.windowOk (b : BusAccess) (cfg : Config) : Bool := inWindow cfg b.addr

/-- The lane is one its width allows (20_memory R85). -/
def BusAccess.laneFits (b : BusAccess) : Bool := laneOk b.width b.addr

/-- The address selects the register that the operation names, or no named register for a default
operation (30_encoding R114). -/
def BusAccess.indexFits (b : BusAccess) (cfg : Config) : Bool :=
  decide (cfg.ofIndex (regIndex cfg b.addr) = b.target)

/-- The three checks of a bus operation. -/
def BusAccess.wellFormed (b : BusAccess) (cfg : Config) : Bool :=
  b.windowOk cfg && b.laneFits && b.indexFits cfg

/-- The source operand, if there is one, is a source: `s < N_SRC` (30_encoding R117). -/
def Instr.sourceFits (i : Instr) (cfg : Config) : Bool :=
  match i with
  | .request x | .unrequest x | .raise x => decide (x.val < cfg.nSrc)
  | _ => true

/-- The operation has a well-formed encoding under the parameters (30_encoding R114, R115, R117): the checks
of its bus access, or `s < N_SRC` and, for `ADVANCE`, `dt >= 1` (R119). Every other operand of a port
operation is legal by its type. -/
def Instr.wellFormed (i : Instr) (cfg : Config) : Bool :=
  match i.busAccess with
  | some b => b.wellFormed cfg
  | none => i.sourceFits cfg && decide (i ≠ .advance 0)

end Sys2Proof
end

