-- ==== Sys2Proof/Decode.lean ====
section
/-! DEFINITION. The two operation formats (30_encoding R113 to R117): the decoder, total on any word,
which rejects by name, and the encoder. Window, lane and enabling are tested when an operation runs
(43_regfile R290, 30_encoding R119), not by the decoder, which looks at `rw`, `wc` and `RegIndex(addr)`
alone (R114; log 11). `RegIndex` and `N_SRC` are those of the parameters it is given (00_scope R10). -/
namespace Sys2Proof

/-- An operation word as it stands at its interface: 40 bits at a port (30_encoding R115), 67 bits on
the register bus (R114). -/
inductive RawOp where
  | p (word : BitVec 40)
  | b (word : BitVec 67)
  deriving DecidableEq, Repr

/-- Why a word is no operation (30_encoding R117). -/
inductive DecodeError where
  /-- An `op` that R115 does not list. -/
  | unknownOp (op : Byte)
  /-- A source id `s >= N_SRC`. -/
  | badSource (s : BitVec 6)
  /-- A timer id above 8. -/
  | badTimer (t : BitVec 4)
  /-- The width code 3. -/
  | badWidth
  deriving DecidableEq, Repr

/-- The source of `arg[5:0]`, refused from `N_SRC` on (30_encoding R117). -/
def decodeSource (cfg : Config) (arg : Word) (k : Source → Instr) : Except DecodeError Instr :=
  if (field arg 0 6).toNat < cfg.nSrc then .ok (k ⟨(field arg 0 6).toNat, (field arg 0 6).isLt⟩)
  else .error (.badSource (field arg 0 6))

/-- The channel of `arg[1:0]` (30_encoding R115). -/
def decodeChan (arg : Word) : Chan := ⟨(field arg 0 2).toNat, (field arg 0 2).isLt⟩

/-- The timer of `arg[3:0]` (30_encoding R115). -/
def decodeTimer (t : BitVec 4) : Except DecodeError TimerId :=
  if h : t.toNat < 4 then .ok (.dma ⟨t.toNat, h⟩)
  else if h : t.toNat - 4 < 3 then .ok (.tmu ⟨t.toNat - 4, h⟩)
  else if t = 7 then .ok .ref
  else if t = 8 then .ok .rtc
  else .error (.badTimer t)

/-- Format P: `op` in bits 39:32, `arg` in bits 31:0 (30_encoding R115). Bits of `arg` that no operand
takes are not looked at (log 12). -/
def decodeP (cfg : Config) (w : BitVec 40) : Except DecodeError Instr :=
  let op : Byte := w.extractLsb' 32 8
  let arg : Word := w.extractLsb' 0 32
  if op = 0x01 then decodeSource cfg arg .request
  else if op = 0x02 then decodeSource cfg arg .unrequest
  else if op = 0x03 then .ok .recompute
  else if op = 0x04 then .ok (.boundary (bit arg 0))
  else if op = 0x05 then decodeSource cfg arg .raise
  else if op = 0x10 then .ok (.setIrl ⟨(field arg 8 2).toNat, (field arg 8 2).isLt⟩ (bit arg 0))
  else if op = 0x11 then .ok (.setIrln arg)
  else if op = 0x12 then .ok (.setNmi (bit arg 0))
  else if op = 0x20 then .ok (.dmaData (decodeChan arg))
  else if op = 0x21 then .ok (.dmaDdt (decodeChan arg))
  else if op = 0x30 then .ok (.advance arg)
  else if op = 0x31 then (decodeTimer (field arg 0 4)).map .fire
  else if op = 0x3F then .ok .reset
  else .error (.unknownOp op)

/-- The width of `wc`, 3 refused (30_encoding R114). -/
def decodeWidth (c : BitVec 2) : Except DecodeError Width :=
  if c = 0 then .ok .byte else if c = 1 then .ok .word else if c = 2 then .ok .long else .error .badWidth

/-- Format B: `rw` 66, `wc` 65:64, `addr` 63:32, `data` 31:0. "The operation selected is determined by
`rw` and `RegIndex(addr)` alone" (30_encoding R114); no named register matching, it is the default. -/
def decodeB (cfg : Config) (w : BitVec 67) : Except DecodeError Instr :=
  let addr : Word := w.extractLsb' 32 32
  let data : Word := w.extractLsb' 0 32
  (decodeWidth (w.extractLsb' 64 2)).map fun wd =>
    match w.getLsbD 66, cfg.ofIndex (regIndex cfg addr) with
    | true, some r => .ofWrite wd addr data r
    | true, none => .wrDefault wd addr data
    | false, some r => .ofRead wd addr r
    | false, none => .rdDefault wd addr

/-- The decoder. -/
def decode (cfg : Config) (w : RawOp) : Except DecodeError Instr :=
  match w with
  | .p w => decodeP cfg w
  | .b w => decodeB cfg w

/-! ## The encoder -/

/-- A format P word. -/
def encodeP (op : Byte) (arg : Word) : RawOp := .p (op ++ arg)

/-- A format B word. -/
def encodeB (b : BusAccess) : RawOp := .b (BitVec.ofBool b.write ++ b.width.code ++ b.addr ++ b.data)

/-- The timer id of 30_encoding R115. -/
def TimerId.code (t : TimerId) : Nat :=
  match t with
  | .dma n => n.val
  | .tmu n => 4 + n.val
  | .ref => 7
  | .rtc => 8

/-- A Bool as `arg` bit 0. -/
def argOfBool (v : Bool) : Word := if v then 1 else 0

/-- The `op` and `arg` of a port operation, none for a bus operation (30_encoding R115). -/
def Instr.portWord (i : Instr) : Option (Byte × Word) :=
  match i with
  | .request s => some (0x01, BitVec.ofNat 32 s.val)
  | .unrequest s => some (0x02, BitVec.ofNat 32 s.val)
  | .recompute => some (0x03, 0)
  | .boundary d => some (0x04, argOfBool d)
  | .raise s => some (0x05, BitVec.ofNat 32 s.val)
  | .setIrl i v => some (0x10, BitVec.ofNat 32 (0x100 * i.val) ||| argOfBool v)
  | .setIrln v => some (0x11, v)
  | .setNmi v => some (0x12, argOfBool v)
  | .dmaData n => some (0x20, BitVec.ofNat 32 n.val)
  | .dmaDdt n => some (0x21, BitVec.ofNat 32 n.val)
  | .advance dt => some (0x30, dt)
  | .fire t => some (0x31, BitVec.ofNat 32 t.code)
  | .reset => some (0x3F, 0)
  | _ => none

/-- The word of an operation (30_encoding R114, R115). Bits that no operand takes are 0. -/
def encode (i : Instr) : RawOp :=
  match i.busAccess, i.portWord with
  | some b, _ => encodeB b
  | none, some (op, arg) => encodeP op arg
  | none, none => encodeP 0 0

/-! ## Words as the opcode table numbers them -/

/-- The word of a table row of `nbits` bits: 40 for format P, 67 (72 in whole bytes) for format B, with
bit 0 the least significant; none for another size or for bits beyond the format. -/
def rawOfTable (nbits w : Nat) : Option RawOp :=
  if nbits = 40 then (if w < 2 ^ 40 then some (.p (BitVec.ofNat 40 w)) else none)
  else if nbits = 67 ∨ nbits = 72 then (if w < 2 ^ 67 then some (.b (BitVec.ofNat 67 w)) else none)
  else none

/-- The operation that the decoder reads, under the default parameters, from a word of
spec/opcode_table.json. -/
def decodeTableWord (nbits w : Nat) : Option Instr :=
  match rawOfTable nbits w with
  | none => none
  | some r => (decode Machine.defaultConfig r).toOption

/-! ## Pseudo-operations (30_encoding R121) -/

/-- `IRQ s`. -/
def pseudoIrq (s : Source) : List Instr := [.request s]

/-- `TICK t` at the time `now` with the deadline `deadline(t)`: `ADVANCE (deadline(t) - now)`, `FIRE t`.
DESIGN CHOICE (log 30): a distance beyond the 32 bits of `arg` wraps modulo 2^32, and a deadline that is
passed has the distance 0; the spec does not say what `TICK t` stands for there. -/
def pseudoTick (t : TimerId) (deadline now : Time) : List Instr :=
  [.advance (BitVec.ofNat 32 (deadline - now)), .fire t]

/-- `STEP`. -/
def pseudoStep : List Instr := [.boundary false]

end Sys2Proof
end

