-- ==== Sys2Proof/Machine/Sparse.lean ====
section
/-! DEFINITION. Sparse tables in one canonical form, rising keys and no entry equal to the default: what
holds the cells of the register file (10_state R29) and the bytes of system memory (20_memory R80). -/
namespace Sys2Proof.Machine

/-- The value at `k`, the default `d` when unlisted. -/
def sparseGet {β : Type} (d : β) (l : List (Nat × β)) (k : Nat) : β :=
  match l with
  | [] => d
  | (k', v) :: t => if k' = k then v else sparseGet d t k

/-- `l` with `(k, v)` before the first greater key. -/
def sparseInsert {β : Type} (l : List (Nat × β)) (k : Nat) (v : β) : List (Nat × β) :=
  match l with
  | [] => [(k, v)]
  | (k', v') :: t => if k < k' then (k, v) :: (k', v') :: t else (k', v') :: sparseInsert t k v

/-- `l` without the key `k`. -/
def sparseErase {β : Type} (l : List (Nat × β)) (k : Nat) : List (Nat × β) :=
  l.filter (fun e => e.1 != k)

/-- The table with `v` at `k`; a default value leaves no entry. -/
def sparseSet {β : Type} [DecidableEq β] (d : β) (l : List (Nat × β)) (k : Nat) (v : β) : List (Nat × β) :=
  if v = d then sparseErase l k else sparseInsert (sparseErase l k) k v

/-- The canonical form: keys strictly rising, no entry equal to the default. -/
def sparseWf {β : Type} [DecidableEq β] (d : β) (l : List (Nat × β)) : Bool :=
  match l with
  | [] => true
  | (k, v) :: t => decide (v ≠ d) && t.all (fun e => decide (k < e.1)) && sparseWf d t

end Sys2Proof.Machine
end

