-- ==== Sys2Proof/Machine/Reset.lean ====
section
/-! DEFINITION. What `RESET` installs, from the reset values of the parameters (70_reset_and_hazards R370;
10_state R22, R29, R40, R42 to R46). -/
namespace Sys2Proof

/-- The value of a named register right after reset: the one that the reset values list, the last entry of the
register counting, else 0 (10_state R29, R40). -/
def Config.resetValue (cfg : Config) (r : Reg) : Word :=
  match cfg.reset.regs.reverse.find? (fun (e : Reg × Word) => decide (e.1 = r)) with
  | some e => e.2
  | none => 0

/-- The priority of a source in `SRC_TABLE` (40_intc R152), the constants of 00_scope R9 among them: NMI, 16, has
level 3 and sub-priority 16; the value `k` of the combined line, 17 + k, 15 - k; the discrete line `i`, 32 + i,
13, 10, 7, 4 for `i` = 0..3. An id beyond the table has rank 0. -/
def Config.srcEntry (cfg : Config) (x : Source) : SrcEntry :=
  if h : x.val < 16 then cfg.srcLow[x.val].entry
  else if x.val = 16 then .fixed 3 16
  else if x.val < 32 then .fixed 0 (32 - x.val)
  else if x.val < 36 then .fixed 0 (13 - 3 * (x.val - 32))
  else match cfg.srcHigh[x.val - 36]? with
    | some e => e.entry
    | none => .fixed 0 0

/-- The priority of a row right after reset (10_state R45, 70_reset_and_hazards R370). -/
def SrcEntry.resetPrio (e : SrcEntry) (sub0 : Nat) : Machine.Prio :=
  match e with
  | .fixed level sub => ⟨level, sub⟩
  | .nibble _ _ => ⟨0, sub0⟩

namespace Machine

/-- The register file right after reset: every cell 0, then the listed values stored one after the other, in the
order of the assignments of 70_reset_and_hazards R370 (10_state R29). Where a `RegIndex` puts two of these
registers on one cell, R371 gives the cell both values; the later assignment stays: DESIGN CHOICE (log 5). -/
def regsReset (cfg : Config) : List (Nat × Word) :=
  cfg.reset.regs.foldl (fun (acc : List (Nat × Word)) (e : Reg × Word) => sparseSet 0 acc (cfg.index e.1) e.2) []

/-- The `cpu.sr` fields after reset, the other bits kept (10_state R22). -/
def srReset (cfg : Config) (sr : Word) : Word :=
  putField (putBit (putBit (putBit sr cfg.srMd cfg.reset.md) cfg.srRb cfg.reset.rb) cfg.srBl cfg.reset.bl)
    cfg.srImask cfg.reset.imask

/-- The interrupt controller after reset (10_state R42 to R46). -/
def intcReset (cfg : Config) : Intc where
  requesting := cfg.reset.requesting
  pending := cfg.reset.pending
  test := cfg.reset.test
  prio := Vector.ofFn fun x : Source => (cfg.srcEntry x).resetPrio cfg.reset.peripheralSub
  irlLine := cfg.reset.irlLine
  irlLevel := cfg.reset.irlLevel
  nmiLine := cfg.reset.nmiLine

end Machine
end Sys2Proof
end

