-- ==== Sys2Proof/Machine/State.lean ====
section
/-! DEFINITION. The state of the block as plain data (10_state R20 to R55, 43_regfile R310), the reasons
an operation has no meaning, and the state right after reset (70_reset_and_hazards R370, R371). -/
namespace Sys2Proof.Machine
open Sys2Proof

/-- The block raises no fault: "No operation of the block raises" one (00_scope R17, 60_exceptions R330);
so there is none. -/
inductive Fault where
  deriving DecidableEq, Repr

/-- Why a step has no meaning. Each is a refusal of the spec (00_scope R15): "the model must not give it
a result". All are safe: nothing can be proved of a result that is not there. -/
inductive Refusal where
  /-- Raised by an arm of `exec` whose instruction has no meaning yet. Safe. -/
  | notModelled (mnemonic : String)
  /-- Raised by the step for a word that encodes no operation (30_encoding R117). Safe. -/
  | badEncoding (e : DecodeError)
  /-- Raised by a bus operation whose address lies outside `REG_WINDOW` (30_encoding R117). Safe. -/
  | outsideWindow
  /-- Raised by a bus operation whose lane its width does not allow (20_memory R85). Safe. -/
  | misalignedLane
  /-- Raised by `ADVANCE` and `FIRE` when they are not enabled (30_encoding R119). Safe. -/
  | notEnabled
  /-- Raised by a DMA access that falls in the register window (20_memory R82, 93 U17). Safe. -/
  | dmaIntoWindow
  /-- Raised by a raw `DMA_DDT` access at a misaligned address (93 U7). Safe. -/
  | rawMisaligned
  deriving DecidableEq, Repr

/-- The CPU context (10_state R20 to R28): the two banks of eight, the unbanked registers, the status
and program registers, the shadows, the sleep state, the floating-point banks. -/
structure Cpu where
  bank0 : Vector Word 8
  bank1 : Vector Word 8
  r8to14 : Vector Word 7
  r15 : Word
  sr : Word
  pc : Word
  vbr : Word
  spc : Word
  ssr : Word
  sgr : Word
  sleep : Sleep
  fp0 : Vector Word 16
  fp1 : Vector Word 16
  deriving DecidableEq, Repr

/-- `direction` of a raw direct transfer: 0 memory to host buffer, 1 host buffer to memory
(41_dmac R214). -/
inductive DdtDirection where
  | toHost
  | toMemory
  deriving DecidableEq, Repr

/-- The parameter record of `DMA_DDT` (41_dmac R214). A buffer word holds 4 or 8 bytes. -/
structure DdtRecord where
  raw : Bool
  rdSrc : Bool
  wrSrc : Bool
  rdDst : Bool
  wrDst : Bool
  source : Word
  destination : Word
  length : Nat
  size : Nat
  direction : DdtDirection
  buffer : List (BitVec 64)
  deriving DecidableEq, Repr

/-- The operands that travel beside the word (30_encoding R115): the host buffer of `DMA_DATA`, whose
length is its number of words (a word holds a unit of up to 32 bytes), and the record of `DMA_DDT`. -/
structure HostPort where
  buffer : List (BitVec 256)
  record : DdtRecord
  deriving DecidableEq, Repr

/-- The answer of `DMA_DATA` (41_dmac R208). -/
inductive PumpResult where
  | notActive
  | partialTransfer
  | complete
  deriving DecidableEq, Repr

/-- The diagnostics of 00_scope R16. -/
inductive Diag where
  | dmaBadIncrement (n : Chan)
  | dmaBadSize (n : Chan)
  | dmaCancelledByDisable (n : Chan)
  | dmaCancelledByNmi (n : Chan)
  | unknownRegisterWrite (addr : Word)
  | irlLevelOversize (v : Int)
  | nmiRaised (s : Source)
  | irqRaised (s : Source)
  deriving DecidableEq, Repr

/-- The output events, in the order the pseudocode emits them (30_encoding R116), and the answers of
the reads and of `DMA_DATA`. -/
inductive Output where
  | readData (v : Word)
  | pumpResult (n : Chan) (r : PumpResult)
  | irqAck (arg : Word)
  | dmaReady (n : Chan) (mode : BitVec 4)
  | gpioOut16 (data : BitVec 16) (ctrl : Word)
  | gpioOut4 (data : BitVec 4) (ctrl : Word)
  | diag (d : Diag)
  deriving DecidableEq, Repr

/-- What the agents do, one at a time (30_encoding R110, 70_reset_and_hazards R386). -/
inductive Event where
  /-- An operation word is issued. -/
  | op (w : RawOp)
  /-- The CPU core writes its own context. -/
  | cpu (c : Cpu)
  /-- The levels that the pins of the two groups show from now on. -/
  | pins (p16 : BitVec 16) (p4 : BitVec 4)
  /-- The caller hands over the operands that travel beside the word. -/
  | hand (p : HostPort)
  /-- The environment writes a byte of system memory. -/
  | poke (a : Word) (v : Byte)
  deriving DecidableEq, Repr

/-- System memory: the bytes that differ from what an unlisted address reads as (20_memory R80). -/
abbrev Memory := List Host.Cell

/-- The register file: the cells that differ from 0 (10_state R29). -/
abbrev Cells := List (Nat × Word)

/-- The state of the block, of the CPU context, of the environment as the block sees it, and the
model's own fields (`cfg`, `events`, `draws`). -/
structure State where
  cfg : Config
  cpu : Cpu
  intc : Intc
  dma : Vector DmaChannel 4
  tmu : Vector TmuChannel 3
  refresh : Refresh
  rtcDeadline : Option Time
  gpio : Gpio
  regs : Cells
  mem : Memory
  now : Time
  pins16 : BitVec 16
  pins4 : BitVec 4
  port : HostPort
  events : List Event
  outputs : List Output
  draws : Nat
  deriving DecidableEq, Repr

/-! ## Reset (70_reset_and_hazards R370, R371) -/

/-- The CPU context right after reset: `sr` and `sleep` as the block resets them, `pc` and `vbr` the
family's (10_state R24, R25; log 8), the rest the model's choice (log 7). -/
def cpuReset : Cpu where
  bank0 := Vector.replicate 8 0
  bank1 := Vector.replicate 8 0
  r8to14 := Vector.replicate 7 0
  r15 := 0
  sr := srReset defaultConfig 0
  pc := 0xA0000000
  vbr := 0
  spc := 0
  ssr := 0
  sgr := 0
  sleep := defaultConfig.reset.sleep
  fp0 := Vector.replicate 16 0
  fp1 := Vector.replicate 16 0

/-- An empty parameter record (log 3). -/
def recordEmpty : DdtRecord where
  raw := false
  rdSrc := false
  wrSrc := false
  rdDst := false
  wrDst := false
  source := 0
  destination := 0
  length := 0
  size := 0
  direction := .toHost
  buffer := []

/-- The machine right after reset, at time 0, under the default parameters, with nothing issued. -/
def State.reset : State where
  cfg := defaultConfig
  cpu := cpuReset
  intc := intcReset defaultConfig
  dma := Vector.replicate 4 defaultConfig.reset.dma
  tmu := Vector.replicate 3 defaultConfig.reset.tmu
  refresh := defaultConfig.reset.refresh
  rtcDeadline := some (0 + defaultConfig.cycPerRtcTick)
  gpio := defaultConfig.reset.gpio
  regs := regsReset defaultConfig
  mem := []
  now := 0
  pins16 := 0
  pins4 := 0
  port := ⟨[], recordEmpty⟩
  events := []
  outputs := []
  draws := 0

end Sys2Proof.Machine
end

