-- ==== Sys2Proof/Machine/Cells.lean ====
section
/-! DEFINITION. The cells of the register file (00_scope R12, 10_state R29), the bytes of system memory
(20_memory R80, R84), and the parts of the state. -/
namespace Sys2Proof.Machine
open Sys2Proof

/-! ## The register file -/

/-- `m[i]` (10_state R29). -/
def State.cell (s : State) (i : Nat) : Word := sparseGet 0 s.regs i

/-- `m[i] <- v`. -/
def State.setCell (s : State) (i : Nat) (v : Word) : State := { s with regs := sparseSet 0 s.regs i v }

/-- `m[REG]` (00_scope R12). -/
def State.reg (s : State) (r : Reg) : Word := s.cell (s.cfg.index r)

/-- `m[REG] <- v`, with no side effect (00_scope R12). -/
def State.setReg (s : State) (r : Reg) (v : Word) : State := s.setCell (s.cfg.index r) v

/-- The register file is in canonical form. -/
def Cells.wf (c : Cells) : Bool := sparseWf (0 : Word) c

/-! ## System memory -/

/-- What a byte that nothing has written reads as: DESIGN CHOICE 0 (log 6). -/
def unlistedByte : Byte := 0

/-- The byte of system memory at an address. -/
def byteAt (m : Memory) (a : Word) : Byte := sparseGet unlistedByte m a.toNat

/-- System memory with a byte written. -/
def setByte (m : Memory) (a : Word) (v : Byte) : Memory := sparseSet unlistedByte m a.toNat v

/-- System memory is in canonical form. -/
def Memory.wf (m : Memory) : Bool := sparseWf unlistedByte m

/-- The place, from the least significant, of byte `i` of `n` (20_memory R91; big-endian DEDUCED, log 23). -/
def byteLane (e : Endian) (n i : Nat) : Nat :=
  match e with
  | .little => i
  | .big => n - 1 - i

/-- `MemRead(addr, n)`, zero-extended to 64 bits, `n` in 1, 2, 4, 8 (20_memory R84, R91). -/
def memRead (e : Endian) (m : Memory) (a : Word) (n : Nat) : BitVec 64 :=
  (List.range n).foldl
    (fun acc i => acc ||| ((byteAt m (a + BitVec.ofNat 32 i)).setWidth 64 <<< (8 * byteLane e n i))) 0

/-- `MemWrite(addr, n, v)` (20_memory R84, R91). -/
def memWrite (e : Endian) (m : Memory) (a : Word) (n : Nat) (v : BitVec 64) : Memory :=
  (List.range n).foldl
    (fun acc i => setByte acc (a + BitVec.ofNat 32 i) (v.extractLsb' (8 * byteLane e n i) 8)) m

/-! ## The parts of the state -/

/-- `dma[n]` (10_state R47). -/
def State.chan (s : State) (n : Chan) : DmaChannel := s.dma[n]

/-- `dma[n] <- c`. -/
def State.setChan (s : State) (n : Chan) (c : DmaChannel) : State := { s with dma := s.dma.set n c }

/-- `tmu[n]` (10_state R50). -/
def State.timer (s : State) (n : TmuChan) : TmuChannel := s.tmu[n]

/-- `tmu[n] <- t`. -/
def State.setTimer (s : State) (n : TmuChan) (t : TmuChannel) : State := { s with tmu := s.tmu.set n t }

/-- The interrupt controller's state replaced. -/
def State.setIntc (s : State) (i : Intc) : State := { s with intc := i }

/-- The CPU context replaced. -/
def State.setCpu (s : State) (c : Cpu) : State := { s with cpu := c }

/-- The refresh timer's state replaced. -/
def State.setRefresh (s : State) (r : Refresh) : State := { s with refresh := r }

/-- `rtc.deadline <- d`. -/
def State.setRtc (s : State) (d : Option Time) : State := { s with rtcDeadline := d }

/-- The GPIO state replaced. -/
def State.setGpio (s : State) (g : Gpio) : State := { s with gpio := g }

/-- System memory replaced. -/
def State.setMem (s : State) (m : Memory) : State := { s with mem := m }

/-- `now <- t`. -/
def State.setNow (s : State) (t : Time) : State := { s with now := t }

/-- The operands beside the word replaced. -/
def State.setPort (s : State) (p : HostPort) : State := { s with port := p }

/-- The counter of free values replaced. -/
def State.setDraws (s : State) (n : Nat) : State := { s with draws := n }

/-- `emit o` (30_encoding R116). -/
def State.emit (s : State) (o : Output) : State := { s with outputs := s.outputs ++ [o] }

/-- `emit Diag(...)` (00_scope R16). -/
def State.emitDiag (s : State) (d : Diag) : State := s.emit (.diag d)

/-- The outcome of an operation. -/
abbrev Result := Host.Outcome State Fault Refusal

/-- The next procedure, inline, when the first one answers a state (00_scope R12, `call`). -/
def andThen (r : Result) (f : State → Result) : Result :=
  match r with
  | .next s => f s
  | .fault e => .fault e
  | .refused e => .refused e

end Sys2Proof.Machine
end

