-- ==== Sys2Proof/Machine/Flags.lean ====
section
/-! DEFINITION. The fields of the registers (10_state R22, R41), the status flags (R54), and the
priority model of the interrupt controller: rank, mask, the test flag and the selection (40_intc R140 to
R146, R156). -/
namespace Sys2Proof.Machine
open Sys2Proof

/-! ## Status register fields (10_state R22) -/

/-- `cpu.sr.MD`. -/
def srMd (s : State) : Bool := bit s.cpu.sr s.cfg.srMd
/-- `cpu.sr.RB`. -/
def srRb (s : State) : Bool := bit s.cpu.sr s.cfg.srRb
/-- `cpu.sr.BL`. -/
def srBl (s : State) : Bool := bit s.cpu.sr s.cfg.srBl
/-- `cpu.sr.IMASK`, four bits from `SR_IMASK` up. -/
def srImask (s : State) : Nat := (field s.cpu.sr s.cfg.srImask 4).toNat

/-- The active bank of the banked registers: bank `RB` in privileged mode, bank 0 in user mode
(10_state R23). -/
def activeBank (cfg : Config) (c : Cpu) : Vector Word 8 :=
  if bit c.sr cfg.srMd && bit c.sr cfg.srRb then c.bank1 else c.bank0

/-! ## Register fields (10_state R41) -/

/-- `ICR.NMIB`. -/
def icrNmib (s : State) : Bool := bit (s.reg .icr) 9
/-- `ICR.IRLM`. -/
def icrIrlm (s : State) : Bool := bit (s.reg .icr) 7
/-- `IPRx.Pk`, bits 4k+3:4k. -/
def iprNibble (v : Word) (k : Nat) : Nat := (field v (4 * k) 4).toNat
/-- `CHCRn.DM`. -/
def chcrDm (v : Word) : BitVec 2 := field v 14 2
/-- `CHCRn.SM`. -/
def chcrSm (v : Word) : BitVec 2 := field v 12 2
/-- `CHCRn.RS`. -/
def chcrRs (v : Word) : BitVec 4 := field v 8 4
/-- `CHCRn.TS`. -/
def chcrTs (v : Word) : BitVec 3 := field v 4 3
/-- `CHCRn.IE`. -/
def chcrIe (v : Word) : Bool := bit v 2
/-- `CHCRn.TE`. -/
def chcrTe (v : Word) : Bool := bit v 1
/-- `CHCRn.DE`. -/
def chcrDe (v : Word) : Bool := bit v 0
/-- `CHCRn.TE <- b`. -/
def putTe (v : Word) (b : Bool) : Word := putBit v 1 b
/-- `DMAOR.AE`. -/
def dmaorAe (v : Word) : Bool := bit v 2
/-- `DMAOR.NMIF`. -/
def dmaorNmif (v : Word) : Bool := bit v 1
/-- `DMAOR.DME`. -/
def dmaorDme (v : Word) : Bool := bit v 0
/-- `DMAOR.AE <- b`. -/
def putAe (v : Word) (b : Bool) : Word := putBit v 2 b
/-- `DMAOR.NMIF <- b`. -/
def putNmif (v : Word) (b : Bool) : Word := putBit v 1 b
/-- `RTCSR.CKS`. -/
def rtcsrCks (v : Word) : BitVec 3 := field v 3 3
/-- `RTCSR.LMTS`. -/
def rtcsrLmts (v : Word) : Bool := bit v 0
/-- `RTCSR.CMF <- b`. -/
def putCmf (v : Word) (b : Bool) : Word := putBit v 7 b
/-- `RTCSR.OVF <- b`. -/
def putOvf (v : Word) (b : Bool) : Word := putBit v 2 b
/-- `MCR.RFSH` = 1 and `MCR.RMODE` = 0: the refresh-counter mode is on (42_timers R253). -/
def mcrCounterMode (v : Word) : Bool := bit v 2 && !(bit v 1)
/-- `RCR1.CF <- b`. -/
def putCf (v : Word) (b : Bool) : Word := putBit v 7 b
/-- `RCR2.START`. -/
def rcr2Start (v : Word) : Bool := bit v 3
/-- `RCR2.ADJ`. -/
def rcr2Adj (v : Word) : Bool := bit v 2
/-- `RCR2.RESET`. -/
def rcr2Reset (v : Word) : Bool := bit v 1
/-- `RCR2.ADJ <- b`. -/
def putAdj (v : Word) (b : Bool) : Word := putBit v 2 b
/-- `RCR2.RESET <- b`. -/
def putReset (v : Word) (b : Bool) : Word := putBit v 1 b
/-- `TSTR.STRn`. -/
def tstrStr (v : Word) (n : TmuChan) : Bool := bit v n.val
/-- `TCRn.UNF`. -/
def tcrUnf (v : Word) : Bool := bit v 8
/-- `TCRn.UNIE`. -/
def tcrUnie (v : Word) : Bool := bit v 5
/-- `TCRn.TPSC`. -/
def tcrTpsc (v : Word) : BitVec 3 := field v 0 3
/-- `TCRn.UNF <- b`. -/
def putUnf (v : Word) (b : Bool) : Word := putBit v 8 b
/-- `BCR2.PORTEN`. -/
def bcr2Porten (v : Word) : Bool := bit v 0

/-! ## Sources (40_intc R152) -/

/-- The source `NMI`. -/
def srcNmi : Source := 16

/-- The source `IRLL(k)`, 17 + k, of the combined line showing `k`, k = 0..14. -/
def srcIrll (k : Fin 15) : Source := ⟨17 + k.val, by omega⟩

/-- The source of the discrete line `i`, 32 + i. -/
def srcIrl (i : Fin 4) : Source := ⟨32 + i.val, by omega⟩

/-- The source `TUNIn`, 36 + n. -/
def srcTuni (n : TmuChan) : Source := ⟨36 + n.val, by omega⟩

/-- The source `DMTEn`, 44 + n. -/
def srcDmte (n : Chan) : Source := ⟨44 + n.val, by omega⟩

/-- The priority of a row of `SRC_TABLE` under a write of priority register `r` with the word `v`, none for
a row that is not on a nibble of it (40_intc R152, R168). -/
def writtenPrio (e : SrcEntry) (r : Fin 4) (v : Word) : Option Prio :=
  match e with
  | .fixed _ _ => none
  | .nibble r' k => if r' = r then some ⟨0, iprNibble v k.val⟩ else none

/-- Every value of a source operand, rising; a value that is no source never requests. -/
def allSources : List Source := List.finRange 64

/-! ## Priority (40_intc R141 to R146, R156) -/

/-- `rank = level * 256 + sub * 16` (40_intc R141). -/
def Prio.rank (p : Prio) : Nat := p.level * 256 + p.sub * 16

/-- `rank(s)`. -/
def rank (s : State) (src : Source) : Nat := (s.intc.prio[src]).rank

/-- `exceeds(s) := rank(s) > cpu.sr.IMASK * 16` (40_intc R143). -/
def exceeds (s : State) (src : Source) : Bool := decide (srImask s * 16 < rank s src)

/-- `allowed(s)`: not blocked, or NMI with `ICR.NMIB` = 1 (40_intc R146). -/
def allowed (s : State) (src : Source) : Bool := !(srBl s) || (decide (src = srcNmi) && icrNmib s)

/-- Some source is requesting (10_state R43). -/
def anyRequesting (i : Intc) : Bool := allSources.any fun src => i.requesting[src]

/-- `TestFn` (40_intc R146). -/
def testFn (s : State) : Bool :=
  s.intc.pending && allSources.any fun src => s.intc.requesting[src] && exceeds s src && allowed s src

/-- `b` outranks or is `a` (40_intc R142): by rank, the higher id on a tie. -/
def better (s : State) (a b : Source) : Bool :=
  decide (rank s a < rank s b) || (decide (rank s a = rank s b) && decide (a.val ≤ b.val))

/-- `SELECT`: the requesting source that outranks every other one (40_intc R156). -/
def select (s : State) : Option Source :=
  allSources.foldl
    (fun best src =>
      if s.intc.requesting[src] then
        match best with
        | none => some src
        | some b => if better s b src then some src else some b
      else best) none

end Sys2Proof.Machine
end

