-- ==== Sys2Proof/Machine/Ops.lean ====
section
/-! DEFINITION. The shared operations: the bus access (43_regfile R290 to R293), request, unrequest and
recompute (40_intc R144 to R146), and taking an exception (40_intc R160, 60_exceptions R336). The block
has no return from exception (60_exceptions R337): the CPU core's own write of its context is an event
of the environment. -/
namespace Sys2Proof.Machine
open Sys2Proof

/-! ## The bus access -/

/-- Why a bus access is refused: outside the window, or a lane its width does not allow (43_regfile R290,
step 1). -/
def busRefusal (cfg : Config) (w : Width) (a : Word) : Option Refusal :=
  if inWindow cfg a = false then some .outsideWindow
  else if laneOk w a = false then some .misalignedLane
  else none

/-- "store masked data" into a cell (43_regfile R292). -/
def storeMasked (i : Nat) (w : Width) (a data : Word) (s : State) : State :=
  s.setCell i (laneMerge s.cfg.endian w a (s.cell i) data)

/-- A write of a cell, then its handler, which may read the old state and the new one
(43_regfile R290, R292; 20_memory R96). -/
def busWrite (i : Nat) (w : Width) (a data : Word) (handler : State → State → Result) (s : State) : Result :=
  match busRefusal s.cfg w a with
  | some e => .refused e
  | none => handler s (storeMasked i w a data s)

/-- A write whose handler cannot be refused. -/
def busWritePure (i : Nat) (w : Width) (a data : Word) (handler : State → State → State) (s : State) : Result :=
  busWrite i w a data (fun old new => .next (handler old new)) s

/-- A plain write (43_regfile R292, R295). -/
def busWritePlain (i : Nat) (w : Width) (a data : Word) (s : State) : Result :=
  busWritePure i w a data (fun _ new => new) s

/-- A write that changes nothing (43_regfile R297 to R299). -/
def busWriteIgnored (w : Width) (a : Word) (s : State) : Result :=
  match busRefusal s.cfg w a with
  | some e => .refused e
  | none => .next s

/-- A read: the lane of the read value is the answer; no state changes (43_regfile R293). -/
def busRead (w : Width) (a : Word) (value : State → Word) (s : State) : Result :=
  match busRefusal s.cfg w a with
  | some e => .refused e
  | none => .next (s.emit (.readData (laneRead s.cfg.endian w a (value s))))

/-! ## Request, unrequest, recompute -/

/-- `RECOMPUTE` (40_intc R146). -/
def recompute (s : State) : State := s.setIntc { s.intc with test := testFn s }

/-- `REQUEST s` (40_intc R144). -/
def requestSource (src : Source) (s : State) : State :=
  if s.intc.requesting[src] then s
  else recompute (s.setIntc { s.intc with requesting := s.intc.requesting.set src true, pending := true })

/-- The controller's state with a source no longer requesting (40_intc R145). -/
def Intc.withdraw (i : Intc) (src : Source) : Intc :=
  let i' := { i with requesting := i.requesting.set src false }
  { i' with pending := anyRequesting i' }

/-- `UNREQUEST s` (40_intc R145). -/
def unrequestSource (src : Source) (s : State) : State :=
  if s.intc.requesting[src] then recompute (s.setIntc (s.intc.withdraw src)) else s

/-! ## Taking an exception (40_intc R160) -/

/-- The acceptance test of `RAISE` (40_intc R160, part 1). -/
def raiseAccepts (src : Source) (s : State) : Bool :=
  if src = srcNmi then !(srBl s && !(icrNmib s)) else !(srBl s) && exceeds s src

/-- The sources that dispatch withdraws: NMI and the four DMA completions (40_intc R160, part 3). -/
def autoCleared (src : Source) : Bool := decide (src = srcNmi) || (decide (44 ≤ src.val) && decide (src.val ≤ 47))

/-- `cpu.sr` with `MD`, `RB` and `BL` set. -/
def srEntered (cfg : Config) (sr : Word) : Word :=
  putBit (putBit (putBit sr cfg.srMd true) cfg.srRb true) cfg.srBl true

/-- The CPU context saved and entered: the shadows, then the status register (40_intc R160, part 4;
60_exceptions R336). -/
def Cpu.entered (cfg : Config) (c : Cpu) : Cpu :=
  { c with spc := c.pc, ssr := c.sr, sgr := c.r15, sr := srEntered cfg c.sr }

/-- The target and the wake-up: `pc <- vbr + VEC_OFFSET[s]`, `Sleeping -> WakePending`. -/
def Cpu.vectored (c : Cpu) (offset : Word) : Cpu :=
  { c with pc := c.vbr + offset, sleep := if c.sleep = .sleeping then .wakePending else c.sleep }

/-- `RAISE s`: taking an exception (40_intc R160). -/
def raiseSource (src : Source) (s : State) : State :=
  if raiseAccepts src s = false then s
  else
    let s1 := s.setReg .intevt (s.cfg.evtCode.getD src.val 0)
    let s2 := s1.emit (.irqAck (s.cfg.ackArg.getD src.val 0))
    let s3 := s2.emitDiag (if src = srcNmi then .nmiRaised src else .irqRaised src)
    let s4 := if autoCleared src then unrequestSource src s3 else s3
    let s5 := s4.setCpu (s4.cpu.entered s4.cfg)
    let s6 := recompute s5
    s6.setCpu (s6.cpu.vectored (s.cfg.vecOffset.getD src.val 0))

/-- `BOUNDARY d` (40_intc R158). -/
def boundary (d : Bool) (s : State) : State :=
  if s.intc.test && !d then
    match select s with
    | none => s
    | some src => raiseSource src s
  else s

end Sys2Proof.Machine
end

