-- ==== Sys2Proof/Machine/DmaOps.lean ====
section
/-! DEFINITION. The procedures of the DMA controller (41_dmac): the copy loop, the start check, the burst
and device-paced transfers, the pump, the direct transfer, completion and cancellation. -/
namespace Sys2Proof.Machine
open Sys2Proof

/-! ## Units (41_dmac R200, R208) -/

/-- `MOVE(s, d, z)`: a 32-byte unit as four 8-byte moves, each read followed by its write
(41_dmac R200, 20_memory R84). -/
def moveUnit (e : Endian) (m : Memory) (src dst : Word) (z : Nat) : Memory :=
  if z = 32 then
    [0, 8, 16, 24].foldl
      (fun acc j => memWrite e acc (dst + BitVec.ofNat 32 j) 8 (memRead e acc (src + BitVec.ofNat 32 j) 8)) m
  else memWrite e m dst z (memRead e m src z)

/-- `READ_UNIT(a, z)`: the four 8-byte values of a 32-byte unit stand side by side, the first lowest
(41_dmac R208; log 19). -/
def readUnit (e : Endian) (m : Memory) (a : Word) (z : Nat) : BitVec 256 :=
  if z = 32 then
    [0, 8, 16, 24].foldl
      (fun acc j => acc ||| ((memRead e m (a + BitVec.ofNat 32 j) 8).setWidth 256 <<< (8 * j))) 0
  else (memRead e m a z).setWidth 256

/-- `WRITE_UNIT(a, z, v)`, the reverse of `READ_UNIT` (41_dmac R208). -/
def writeUnit (e : Endian) (m : Memory) (a : Word) (z : Nat) (v : BitVec 256) : Memory :=
  if z = 32 then
    [0, 8, 16, 24].foldl (fun acc j => memWrite e acc (a + BitVec.ofNat 32 j) 8 (v.extractLsb' (8 * j) 64)) m
  else memWrite e m a z (v.extractLsb' 0 64)

/-- The first `cnt` units of the copy loop, in order (41_dmac R200). -/
def copyUnits (e : Endian) (src dst : Word) (z : Nat) (incs incd : Inc) (cnt : Nat) (m : Memory) : Memory :=
  match cnt with
  | 0 => m
  | k + 1 =>
    moveUnit e (copyUnits e src dst z incs incd k m) (unitAddr src z incs k) (unitAddr dst z incd k) z

/-- What a copy leaves: the memory and the two final addresses. -/
structure Copied where
  mem : Memory
  src : Word
  dst : Word
  deriving DecidableEq, Repr

/-- `COPY(src0, dst0, cnt, z, incs, incd)`, none when an access falls in the register window
(41_dmac R200, 20_memory R82). -/
def copyBlock (cfg : Config) (m : Memory) (src0 dst0 : Word) (cnt z : Nat) (incs incd : Inc) : Option Copied :=
  let src := dmaAlign cfg.dmaAddrMask src0 z
  let dst := dmaAlign cfg.dmaAddrMask dst0 z
  if runMeetsWindow cfg src z incs cnt || runMeetsWindow cfg dst z incd cnt then none
  else some ⟨copyUnits cfg.endian src dst z incs incd cnt m, endAddr src z incs cnt, endAddr dst z incd cnt⟩

/-! ## The parameters of a transfer (41_dmac R191, R196) -/

/-- What a channel's control word and count say. -/
structure DmaSetup where
  size : Nat
  incs : Inc
  incd : Inc
  count : Nat
  deriving DecidableEq, Repr

/-- `count(n)`, 0 standing for 0x1000000 (41_dmac R191). -/
def dmaCount (v : Word) : Nat := if (field v 0 24).toNat = 0 then 0x1000000 else (field v 0 24).toNat

/-- The validated parameters of channel `n`, or the diagnostic of the failure: an increment code 3 first,
then a reserved size (41_dmac R196). -/
def dmaSetup (s : State) (n : Chan) : Except Diag DmaSetup :=
  let c := s.reg (.chcr n)
  let incs := Inc.ofCode (chcrSm c)
  let incd := Inc.ofCode (chcrDm c)
  let z := unitSize (chcrTs c)
  if incs = .illegal ∨ incd = .illegal then .error (.dmaBadIncrement n)
  else if z = 0 then .error (.dmaBadSize n)
  else .ok ⟨z, incs, incd, dmaCount (s.reg (.dmatcr n))⟩

/-! ## Burst transfer (41_dmac R196) -/

/-- `mode` of `TRANSFER`. -/
inductive TransferMode where
  | burst
  | instant
  | noTimer
  deriving DecidableEq, Repr

/-- `DMA_BURST_DELAY(count)` (00_scope R10). -/
def burstDelay (cfg : Config) (cnt : Nat) : Nat :=
  (cfg.burstDelayOther.lookup cnt).getD (cfg.burstDelayMul * cnt + cfg.burstDelayAdd)

/-- The channel of a transfer just started, by its mode. -/
def armChannel (mode : TransferMode) (cnt : Nat) (s : State) (n : Chan) : State :=
  match mode with
  | .burst =>
    s.setChan n { s.chan n with active := true, kind := .burst, deadline := some (s.now + burstDelay s.cfg cnt) }
  | .instant => s.setChan n { s.chan n with active := true, kind := .burst, deadline := some s.now }
  | .noTimer => s

/-- How a transfer ends: a failure with its diagnostic, an access in the register window, or the state with
the copy done and the two final addresses. -/
inductive TransferResult where
  | failed (s : State)
  | intoWindow
  | moved (s : State) (src dst : Word)
  deriving DecidableEq, Repr

/-- `TRANSFER(n, mode)` with the two addresses given (41_dmac R196, R214). -/
def transferFrom (n : Chan) (mode : TransferMode) (src dst : Word) (s : State) : TransferResult :=
  match dmaSetup s n with
  | .error d => .failed (s.emitDiag d)
  | .ok p =>
    match copyBlock s.cfg s.mem src dst p.count p.size p.incs p.incd with
    | none => .intoWindow
    | some r => .moved ((armChannel mode p.count s n).setMem r.mem) r.src r.dst

/-- The final addresses written back where `DMA_WRITEBACK_ADDR` says so (41_dmac R196). -/
def writeBack (n : Chan) (src dst : Word) (s : State) : State :=
  if s.cfg.writebackAddr then (s.setReg (.sar n) src).setReg (.dar n) dst else s

/-- `TRANSFER(n, mode)` from the channel's address registers (41_dmac R196). -/
def transfer (n : Chan) (mode : TransferMode) (s : State) : Result :=
  match transferFrom n mode (s.reg (.sar n)) (s.reg (.dar n)) s with
  | .failed s' => .next s'
  | .intoWindow => .refused .dmaIntoWindow
  | .moved s' src dst => .next (writeBack n src dst s')

/-! ## Device-paced transfer (41_dmac R204) -/

/-- `TRANSFER_DEVICE(n)`. -/
def transferDevice (n : Chan) (s : State) : State :=
  match dmaSetup s n with
  | .error d => s.emitDiag d
  | .ok p =>
    let mode := chcrRs (s.reg (.chcr n))
    (s.setChan n
      { active := true, kind := .device, deadline := none,
        devSrc := s.reg (.sar n), devDst := s.reg (.dar n), devCount := p.count, devSize := p.size,
        devIncs := p.incs, devIncd := p.incd, devMode := mode }).emit (.dmaReady n mode)

/-! ## The start check (41_dmac R192) -/

/-- The channel cancelled: no longer active, no deadline, its cached parameters kept. -/
def DmaChannel.cancelled (c : DmaChannel) : DmaChannel := { c with active := false, deadline := none }

/-- The channel and the controller are enabled: `DE` = 1 and `DME` = 1. -/
def dmaEnabled (s : State) (n : Chan) : Bool :=
  chcrDe (s.reg (.chcr n)) && dmaorDme (s.reg .dmaor)

/-- No error is latched and the transfer-end flag allows a start. -/
def dmaStartAllowed (s : State) (n : Chan) : Bool :=
  !(dmaorAe (s.reg .dmaor)) && !(dmaorNmif (s.reg .dmaor)) &&
    !(s.cfg.startRequiresTeClear && chcrTe (s.reg (.chcr n)))

/-- `CHECK(n)` (41_dmac R192). -/
def checkChannel (n : Chan) (s : State) : Result :=
  let rs := (chcrRs (s.reg (.chcr n))).toNat
  if dmaEnabled s n then
    if (s.chan n).active then .next s
    else if dmaStartAllowed s n = false then .next s
    else if rs = 4 ∨ rs = 5 ∨ rs = 6 then transfer n .burst s
    else if rs = 2 ∨ rs = 3 then .next (transferDevice n s)
    else .next s
  else if (s.chan n).active then
    .next ((s.setChan n (s.chan n).cancelled).emitDiag (.dmaCancelledByDisable n))
  else .next s

/-- The checks of all four channels, in channel order (41_dmac R223). -/
def checkAll (s : State) : Result :=
  andThen (checkChannel 0 s) fun s => andThen (checkChannel 1 s) fun s =>
    andThen (checkChannel 2 s) fun s => checkChannel 3 s

/-- `DMAOR` after a write: software cannot set `AE` or `NMIF` (41_dmac R223). -/
def dmaorKept (old new : Word) : Word :=
  let v := if dmaorAe new && !(dmaorAe old) then putAe new false else new
  if dmaorNmif v && !(dmaorNmif old) then putNmif v false else v

/-! ## Completion and NMI (41_dmac R218, R220) -/

/-- The completion callback of channel `n` (41_dmac R218). -/
def dmaComplete (n : Chan) (s : State) : State :=
  let s1 := s.setChan n (s.chan n).cancelled
  let s2 := s1.setReg (.dmatcr n) 0
  let s3 := s2.setReg (.chcr n) (putTe (s2.reg (.chcr n)) true)
  if chcrIe (s3.reg (.chcr n)) then requestSource (srcDmte n) s3 else s3

/-- One channel of `DMAC_NMI`. -/
def nmiCancel (s : State) (n : Chan) : State :=
  if (s.chan n).active then
    (s.setChan n (s.chan n).cancelled).emitDiag (.dmaCancelledByNmi n)
  else s

/-- `DMAC_NMI` (41_dmac R220). -/
def dmacNmi (s : State) : State :=
  [0, 1, 2, 3].foldl nmiCancel (s.setReg .dmaor (putNmif (s.reg .dmaor) true))

/-! ## The data pump (41_dmac R208) -/

/-- The address of the pump's unit `k` on its memory side. -/
def pumpAddr (cfg : Config) (base : Word) (z : Nat) (inc : Inc) (k : Nat) : Word :=
  dmaAlign cfg.dmaAddrMask (unitAddr base z inc k) z

/-- The channel after `len` units: the count, and the immediate completion timer at 0. -/
def pumpCounted (now : Time) (c : DmaChannel) (len : Nat) : DmaChannel :=
  { c with devCount := c.devCount - len,
           deadline := if c.devCount - len = 0 then some now else c.deadline }

/-- The answer of a pump call that leaves the channel `c`. -/
def pumpAnswer (c : DmaChannel) : PumpResult := if c.devCount = 0 then .complete else .partialTransfer

/-- `DMA_DATA` on a channel in flight, memory to device: units are read into the host buffer. -/
def pumpToDevice (n : Chan) (len : Nat) (s : State) : Result :=
  let c := s.chan n
  let addr := pumpAddr s.cfg c.devSrc c.devSize c.devIncs
  if (List.range len).any (fun k => unitMeetsWindow s.cfg (addr k) c.devSize) then .refused .dmaIntoWindow
  else
    let units := (List.range len).map fun k => readUnit s.cfg.endian s.mem (addr k) c.devSize
    let c' := pumpCounted s.now { c with devSrc := endAddr c.devSrc c.devSize c.devIncs len } len
    .next (((s.setPort { s.port with buffer := units ++ s.port.buffer.drop len }).setChan n c').emit
      (.pumpResult n (pumpAnswer c')))

/-- `DMA_DATA` on a channel in flight, device to memory: units are written from the host buffer. -/
def pumpToMemory (n : Chan) (len : Nat) (s : State) : Result :=
  let c := s.chan n
  let addr := pumpAddr s.cfg c.devDst c.devSize c.devIncd
  if (List.range len).any (fun k => unitMeetsWindow s.cfg (addr k) c.devSize) then .refused .dmaIntoWindow
  else
    let m := (List.range len).foldl
      (fun m k => writeUnit s.cfg.endian m (addr k) c.devSize (s.port.buffer.getD k 0)) s.mem
    let c' := pumpCounted s.now { c with devDst := endAddr c.devDst c.devSize c.devIncd len } len
    .next (((s.setMem m).setChan n c').emit (.pumpResult n (pumpAnswer c')))

/-- `DMA_DATA n` (41_dmac R208). -/
def pump (n : Chan) (s : State) : Result :=
  let c := s.chan n
  if c.active = false ∨ c.kind ≠ .device then .next (s.emit (.pumpResult n .notActive))
  else
    let len := min c.devCount s.port.buffer.length
    if c.devMode = 2 then pumpToDevice n len s else pumpToMemory n len s

/-! ## The direct transfer (41_dmac R214) -/

/-- The record replaced. -/
def State.setRecord (s : State) (p : DdtRecord) : State := s.setPort { s.port with record := p }

/-- The read-back and write-through of the address registers, source first, read-back first. -/
def ddtAddresses (n : Chan) (s : State) : State :=
  let p := s.port.record
  let src := if p.rdSrc then s.reg (.sar n) else p.source
  let s1 := if p.wrSrc then s.setReg (.sar n) src else s
  let dst := if p.rdDst then s1.reg (.dar n) else p.destination
  let s2 := if p.wrDst then s1.setReg (.dar n) dst else s1
  s2.setRecord { p with source := src, destination := dst }

/-- The length validation passes: `len * z = p.length * p.size` where both sizes are known. DESIGN CHOICE
(log 29): both are products of natural numbers, which do not wrap at 32 bits (00_scope R11), so a count register
of 0x08000000 with z = 32 differs from a length of 0; the spec gives the length and the size of the record no
width. -/
def ddtLengthOk (n : Chan) (s : State) : Bool :=
  let z := unitSize (chcrTs (s.reg (.chcr n)))
  let p := s.port.record
  decide (z = 0) || decide (p.size = 0) || decide ((s.reg (.dmatcr n)).toNat * z = p.length * p.size)

/-- The direct transfer that is not raw: `TRANSFER(n, NoTimer)` from the record's addresses. -/
def ddtTransfer (n : Chan) (s : State) : Result :=
  let s1 := ddtAddresses n s
  if ddtLengthOk n s1 = false then .next s1
  else
    match transferFrom n .noTimer s1.port.record.source s1.port.record.destination s1 with
    | .failed s' => .next s'
    | .intoWindow => .refused .dmaIntoWindow
    | .moved s' src dst => .next (s'.setRecord { s1.port.record with source := src, destination := dst })

/-- Some access of a raw run of `cnt` pieces of `z` bytes from `base` has no meaning: misaligned (93 U7),
or in the register window (20_memory R82). -/
def rawRefusal (cfg : Config) (base : Word) (z cnt : Nat) : Option Refusal :=
  if cnt = 0 then none
  else if base.toNat % z ≠ 0 then some .rawMisaligned
  else if (List.range cnt).any (fun k => inWindow cfg (unitAddr base z .increment k)) then some .dmaIntoWindow
  else none

/-- The word that a raw transfer takes from position `k` of the host buffer: a free value beyond its end
(log 16). -/
def rawBufferWord (s : State) (k : Nat) : BitVec 64 :=
  s.port.record.buffer.getD k (Config.freeBufferWord (s.draws + (k - s.port.record.buffer.length)))

/-- A raw transfer of `cnt` pieces of `z` bytes from memory to the host buffer. -/
def rawToHost (z cnt : Nat) (s : State) : Result :=
  let p := s.port.record
  match rawRefusal s.cfg p.source z cnt with
  | some e => .refused e
  | none =>
    let words := (List.range cnt).map fun k => memRead s.cfg.endian s.mem (unitAddr p.source z .increment k) z
    .next (s.setRecord { p with source := endAddr p.source z .increment cnt,
                                buffer := words ++ p.buffer.drop cnt })

/-- A raw transfer of `cnt` pieces of `z` bytes from the host buffer to memory. -/
def rawToMemory (z cnt : Nat) (s : State) : Result :=
  let p := s.port.record
  match rawRefusal s.cfg p.destination z cnt with
  | some e => .refused e
  | none =>
    let m := (List.range cnt).foldl
      (fun m k => memWrite s.cfg.endian m (unitAddr p.destination z .increment k) z (rawBufferWord s k)) s.mem
    .next (((s.setMem m).setDraws (s.draws + (cnt - p.buffer.length))).setRecord
      { p with destination := endAddr p.destination z .increment cnt })

/-- The raw direct transfer: 4-byte words, or 32-byte units as 8-byte pieces; any other size does
nothing. -/
def ddtRaw (s : State) : Result :=
  let p := s.port.record
  if p.size = 4 then
    match p.direction with
    | .toHost => rawToHost 4 p.length s
    | .toMemory => rawToMemory 4 p.length s
  else if p.size = 32 then
    match p.direction with
    | .toHost => rawToHost 8 (4 * p.length) s
    | .toMemory => rawToMemory 8 (4 * p.length) s
  else .next s

/-- `DMA_DDT n` (41_dmac R214). -/
def ddt (n : Chan) (s : State) : Result :=
  if (s.chan n).active then .next s
  else if s.port.record.raw then ddtRaw s
  else ddtTransfer n s

end Sys2Proof.Machine
end

