-- ==== Sys2Proof/Machine/TimerOps.lean ====
section
/-! DEFINITION. The procedures of the timers (42_timers): the TMU channels, the bus refresh timer, the
real-time clock and its calendar; the expiry of each; time (30_encoding R119); the GPIO recomputation
(43_regfile R301). -/
namespace Sys2Proof.Machine
open Sys2Proof

/-! ## TMU channels (42_timers R240 to R245) -/

/-- `TMU_DIV[TCRn.TPSC]`. -/
def tmuDivOf (cfg : Config) (tcr : Word) : Nat := cfg.tmuDiv.getD (tcrTpsc tcr).toNat 0

/-- `P_tmu(n)` for a control word (42_timers R240). -/
def tmuPeriod (cfg : Config) (tcr : Word) : Nat := tmuDivOf cfg tcr * cfg.cycPerPclk

/-- `live(n)` (42_timers R243). -/
def tmuLive (n : TmuChan) (s : State) : Word :=
  match (s.timer n).deadline with
  | none => s.reg (.tcnt n)
  | some _ =>
    BitVec.ofNat 32
      ((s.reg (.tcnt n)).toNat - (s.now - (s.timer n).armedAt) / tmuPeriod s.cfg (s.reg (.tcr n)))

/-- `TMU_ARM(n)` (42_timers R244). -/
def tmuArm (n : TmuChan) (s : State) : State :=
  if tmuDivOf s.cfg (s.reg (.tcr n)) = 0 then s.setTimer n { s.timer n with deadline := none }
  else
    s.setTimer n
      { armedAt := s.now,
        deadline := some (s.now + max (s.reg (.tcnt n)).toNat 1 * tmuPeriod s.cfg (s.reg (.tcr n))) }

/-- The expiry of TMU channel `n` (42_timers R245). -/
def tmuExpire (n : TmuChan) (s : State) : State :=
  let s1 := tmuArm n (s.setReg (.tcnt n) (s.reg (.tcor n)))
  let s2 := s1.setReg (.tcr n) (putUnf (s1.reg (.tcr n)) true)
  if tcrUnie (s2.reg (.tcr n)) then requestSource (srcTuni n) s2 else s2

/-- The handler of `WR.TSTR` for channel `n`, `old` the word before the write (42_timers R246). -/
def tstrChannel (old : Word) (s : State) (n : TmuChan) : State :=
  let now := tstrStr (s.reg .tstr) n
  if !(tstrStr old n) && now then tmuArm n s
  else if tstrStr old n && !now then
    (s.setReg (.tcnt n) (tmuLive n s)).setTimer n { s.timer n with deadline := none }
  else s

/-- The handler of `WR.TSTR` (42_timers R246). -/
def tstrWritten (old new : State) : State := [0, 1, 2].foldl (tstrChannel (old.reg .tstr)) new

/-- The handler of `WR.TCNTn` (42_timers R247). -/
def tcntWritten (n : TmuChan) (new : State) : State :=
  if tstrStr (new.reg .tstr) n then tmuArm n new else new

/-- The handler of `WR.TCRn`: snapshot with the old prescaler, re-arm with the new one, acknowledge
(42_timers R248). -/
def tcrWritten (n : TmuChan) (old new : State) : State :=
  let s1 :=
    if tstrStr (new.reg .tstr) n then
      tmuArm n (if (old.timer n).deadline.isSome then new.setReg (.tcnt n) (tmuLive n old) else new)
    else new
  if !(tcrUnf (s1.reg (.tcr n))) || !(tcrUnie (s1.reg (.tcr n))) then unrequestSource (srcTuni n) s1 else s1

/-! ## The bus refresh timer (42_timers R253 to R262) -/

/-- `P_ref` for a control word (42_timers R240). -/
def refPeriod (cfg : Config) (rtcsr : Word) : Nat := refDiv (rtcsrCks rtcsr) * cfg.cycPerBus

/-- The refresh timer is active: `RTCSR.CKS != 0` (42_timers R253). -/
def refActive (s : State) : Bool := decide (rtcsrCks (s.reg .rtcsr) ≠ 0)

/-- `live_rt` (42_timers R254). -/
def refLive (s : State) : Word :=
  BitVec.ofNat 32
    ((s.refresh.base + (s.now - s.refresh.armedAt) / refPeriod s.cfg (s.reg .rtcsr)) % 256)

/-- The ticks from a count to the compare value, a full turn when equal (42_timers R254). -/
def refTicks (rtcor rtcnt : Word) : Nat :=
  if (rtcor - rtcnt).toNat % 256 = 0 then 256 else (rtcor - rtcnt).toNat % 256

/-- `REF_ARM` (42_timers R254). -/
def refArm (s : State) : State :=
  s.setRefresh
    { base := (s.reg .rtcnt).toNat, armedAt := s.now,
      deadline := some (s.now + refTicks (s.reg .rtcor) (s.reg .rtcnt) * refPeriod s.cfg (s.reg .rtcsr)) }

/-- `ref.deadline <- none`. -/
def refStop (s : State) : State := s.setRefresh { s.refresh with deadline := none }

/-- The refresh counter reaches its threshold: 512 under `LMTS` = 1, 0 under `LMTS` = 0
(42_timers R256). -/
def refThreshold (lmts : Bool) (rfcr : Word) : Bool :=
  (lmts && decide (rfcr = 512)) || (!lmts && decide (rfcr = 0))

/-- The refresh-counter part of the expiry: the counter is stored, then compared with its threshold (42_timers
R256). -/
def refCount (s : State) : State :=
  if mcrCounterMode (s.reg .mcr) then
    let s1 := s.setReg .rfcr (BitVec.ofNat 32 (((s.reg .rfcr).toNat + 1) % 1024))
    if refThreshold (rtcsrLmts (s1.reg .rtcsr)) (s1.reg .rfcr) then
      let s2 := s1.setReg .rfcr 0
      s2.setReg .rtcsr (putOvf (s2.reg .rtcsr) true)
    else s1
  else s

/-- The expiry of the refresh timer (42_timers R256). -/
def refExpire (s : State) : State :=
  let s1 := refArm (s.setReg .rtcnt 0)
  refCount (s1.setReg .rtcsr (putCmf (s1.reg .rtcsr) true))

/-- The handler of `WR.RTCSR` (42_timers R258). -/
def rtcsrWritten (old new : State) : State :=
  let s1 := new.setReg .rtcsr (new.reg .rtcsr &&& 0xFF)
  let s2 := if refActive old then s1.setReg .rtcnt (refLive old) else s1
  if refActive s2 then refArm s2 else refStop s2

/-- The handler of `WR.RTCNT` (42_timers R259). -/
def rtcntWritten (new : State) : State :=
  let s1 := new.setReg .rtcnt (new.reg .rtcnt &&& 0xFF)
  if refActive s1 then refArm s1 else s1

/-- The handler of `WR.RTCOR` (42_timers R260). -/
def rtcorWritten (new : State) : State :=
  let s1 := new.setReg .rtcor (new.reg .rtcor &&& 0xFF)
  if refActive s1 then refArm (s1.setReg .rtcnt (refLive s1)) else s1

/-- The handler of `WR.RFCR` (42_timers R261). -/
def rfcrWritten (new : State) : State := new.setReg .rfcr (new.reg .rfcr &&& 0x3FF)

/-- The value that `RD.RTCNT` reads (42_timers R262). -/
def rtcntValue (s : State) : Word := if refActive s then refLive s else s.reg .rtcnt

/-! ## The calendar (42_timers R268)

`CAL_INC` works on the register cells one statement after the other, and writes the stages it reaches alone. -/

/-- `dec(b) = 10 * b[7:4] + b[3:0]` (42_timers R265). -/
def bcdValue (b : Word) : Nat := 10 * (field b 4 4).toNat + (field b 0 4).toNat

/-- `bcd_inc(x)`. -/
def bcdInc (x : Word) : Word := if (x + 1) &&& 0xF = 0xA then x + 1 + 6 else x + 1

/-- The year in decimal. -/
def yearValue (y : Word) : Nat :=
  1000 * (field y 12 4).toNat + 100 * (field y 8 4).toNat + 10 * (field y 4 4).toNat + (field y 0 4).toNat

/-- The Gregorian leap-year rule. -/
def leapYear (y : Nat) : Bool := (decide (y % 4 = 0) && decide (y % 100 ≠ 0)) || decide (y % 400 = 0)

/-- The days of a month; a month outside 1..12 has none. -/
def monthDays (cfg : Config) (mon year : Nat) : Nat :=
  (if 1 ≤ mon ∧ mon ≤ 12 then cfg.monthLen.getD (mon - 1) 0 else 0)
    + (if mon = 2 ∧ leapYear year = true then 1 else 0)

/-- The next year, digit by digit, wrapping to 0. -/
def yearInc (y0 : Word) : Word :=
  let y1 := y0 + 1
  let y2 := if y1 &&& 0x000F = 0x000A then y1 + 0x0006 else y1
  let y3 := if y2 &&& 0x00F0 = 0x00A0 then y2 + 0x0060 else y2
  let y4 := if y3 &&& 0x0F00 = 0x0A00 then y3 + 0x0600 else y3
  let y5 := if y4 &&& 0xF000 = 0xA000 then 0 else y4
  y5 &&& 0xFFFF

/-- A stage of `CAL_INC`: the register counts in BCD; where it then holds `limit`, it is set to `first` and the
next stage runs. -/
def calStage (r : Reg) (limit first : Word) (next : State → State) (s : State) : State :=
  let s1 := s.setReg r (bcdInc (s.reg r))
  if s1.reg r = limit then next (s1.setReg r first) else s1

/-- The year stage. -/
def incYear (s : State) : State := s.setReg .ryrcnt (yearInc (s.reg .ryrcnt))

/-- The month stage. -/
def incMonth (s : State) : State := calStage .rmoncnt 0x13 1 incYear s

/-- The weekday stage, which always goes on. -/
def incWeekday (s : State) : State :=
  let s1 := s.setReg .rwkcnt (s.reg .rwkcnt + 1)
  if s1.reg .rwkcnt = 7 then s1.setReg .rwkcnt 0 else s1

/-- The weekday stage and the day stage; the length of the month is taken before the day is stored. -/
def incDay (s : State) : State :=
  let s1 := incWeekday s
  let days := monthDays s1.cfg (bcdValue (s1.reg .rmoncnt)) (yearValue (s1.reg .ryrcnt))
  let s2 := s1.setReg .rdaycnt (bcdInc (s1.reg .rdaycnt))
  if days < bcdValue (s2.reg .rdaycnt) then incMonth (s2.setReg .rdaycnt 1) else s2

/-- The hour stage. -/
def incHour (s : State) : State := calStage .rhrcnt 0x24 0 incDay s

/-- The minute stage: `CAL_INC(from_minutes)`. -/
def incMinute (s : State) : State := calStage .rmincnt 0x60 0 incHour s

/-- The second stage: `CAL_INC(from_seconds)`. -/
def incSecond (s : State) : State := calStage .rseccnt 0x60 0 incMinute s

/-! ## The real-time clock (42_timers R265, R266) -/

/-- The 128 Hz tick (42_timers R266). -/
def rtcExpire (s : State) : State :=
  let s1 := s.setRtc (s.rtcDeadline.map (· + s.cfg.cycPerRtcTick))
  let s2 := s1.setReg .r64cnt ((s1.reg .r64cnt + 1) &&& 0x7F)
  if s2.reg .r64cnt = 64 then
    incSecond (s2.setReg .rcr1 (putCf (s2.reg .rcr1) true))
  else s2

/-- `RCR2.RESET`, a write-1 action (42_timers R265). -/
def rcr2ResetAction (s : State) : State :=
  if rcr2Reset (s.reg .rcr2) then
    let s1 := s.setReg .r64cnt 0
    s1.setReg .rcr2 (putReset (s1.reg .rcr2) false)
  else s

/-- `RCR2.ADJ`, a write-1 action: the 30-second adjust (42_timers R265). -/
def rcr2AdjAction (s : State) : State :=
  if rcr2Adj (s.reg .rcr2) then
    let s1 := s.setReg .r64cnt 0
    let s2 := if 30 ≤ bcdValue (s1.reg .rseccnt) then incMinute s1 else s1
    let s3 := s2.setReg .rseccnt 0
    s3.setReg .rcr2 (putAdj (s3.reg .rcr2) false)
  else s

/-- Start and stop (42_timers R265). -/
def rcr2StartStop (old : Word) (s : State) : State :=
  if rcr2Start (s.reg .rcr2) then
    if rcr2Start old then s else s.setRtc (some (s.now + s.cfg.cycPerRtcTick))
  else s.setRtc none

/-- The handler of `WR.RCR2` (42_timers R265). -/
def rcr2Written (old new : State) : State :=
  rcr2StartStop (old.reg .rcr2)
    (rcr2AdjAction (rcr2ResetAction (new.setReg .rcr2 (new.reg .rcr2 &&& 0xFF))))

/-! ## Time (30_encoding R119) -/

/-- The deadline of a timer. -/
def deadlineOf (t : TimerId) (s : State) : Option Time :=
  match t with
  | .dma n => (s.chan n).deadline
  | .tmu n => (s.timer n).deadline
  | .ref => s.refresh.deadline
  | .rtc => s.rtcDeadline

/-- Every timer (30_encoding R115). -/
def allTimers : List TimerId := [.dma 0, .dma 1, .dma 2, .dma 3, .tmu 0, .tmu 1, .tmu 2, .ref, .rtc]

/-- The timer has a deadline, not later than now: `FIRE t` is enabled. -/
def timerDue (t : TimerId) (s : State) : Bool :=
  match deadlineOf t s with
  | none => false
  | some d => decide (d ≤ s.now)

/-- Every armed deadline is `>= t`. -/
def noDeadlineBefore (t : Time) (s : State) : Bool :=
  allTimers.all fun i => match deadlineOf i s with
    | none => true
    | some d => decide (t ≤ d)

/-- `ADVANCE dt` is enabled: `dt >= 1` and no deadline is passed. -/
def advanceEnabled (dt : Word) (s : State) : Bool :=
  decide (1 ≤ dt.toNat) && noDeadlineBefore (s.now + dt.toNat) s

/-- The expiry of a timer (30_encoding R119). -/
def expire (t : TimerId) (s : State) : State :=
  match t with
  | .dma n => dmaComplete n s
  | .tmu n => tmuExpire n s
  | .ref => refExpire s
  | .rtc => rtcExpire s

/-! ## GPIO (43_regfile R301 to R307) -/

/-- The bits `2a + odd` of a control register, `a` = 0..n-1. -/
def pairBits (n : Nat) (ctl : Word) (odd : Nat) : BitVec n :=
  (List.range n).foldl (fun acc a => acc ||| (if bit ctl (2 * a + odd) then 1#n <<< a else 0)) 0

/-- `dir` of `GPIO_RECOMP` (43_regfile R301). -/
def gpioDir (n : Nat) (ctl : Word) : BitVec n := pairBits n ctl 0

/-- `pup` of `GPIO_RECOMP`: an input pin whose pull-up bit is 0 (43_regfile R301). -/
def gpioPup (n : Nat) (ctl : Word) : BitVec n := ~~~(pairBits n ctl 1 ||| pairBits n ctl 0)

/-- `GpioOut16` where `BCR2.PORTEN` = 1 (43_regfile R302, R303). -/
def gpioPush16 (s : State) : State :=
  if bcr2Porten (s.reg .bcr2) then
    s.emit (.gpioOut16 ((s.reg .pdtra).setWidth 16 &&& s.gpio.dir16) (s.reg .pctra))
  else s

/-- `GpioOut4` where `BCR2.PORTEN` = 1 (43_regfile R304, R305). -/
def gpioPush4 (s : State) : State :=
  if bcr2Porten (s.reg .bcr2) then
    s.emit (.gpioOut4 ((s.reg .pdtrb).setWidth 4 &&& s.gpio.dir4) (s.reg .pctrb))
  else s

/-- The handler of `WR.PCTRA` (43_regfile R302). -/
def pctraWritten (s : State) : State :=
  gpioPush16 (s.setGpio { s.gpio with dir16 := gpioDir 16 (s.reg .pctra), pup16 := gpioPup 16 (s.reg .pctra) })

/-- The handler of `WR.PCTRB` (43_regfile R304). -/
def pctrbWritten (s : State) : State :=
  gpioPush4 (s.setGpio { s.gpio with dir4 := gpioDir 4 (s.reg .pctrb), pup4 := gpioPup 4 (s.reg .pctrb) })

/-- The value that `RD.PDTRA` reads (43_regfile R306). -/
def pdtraValue (s : State) : Word :=
  if bcr2Porten (s.reg .bcr2) then
    (s.pins16 &&& ~~~s.gpio.dir16).setWidth 32 ||| (s.reg .pdtra &&& s.gpio.dir16.setWidth 32)
  else s.reg .pdtra

/-- The value that `RD.PDTRB` reads (43_regfile R307). -/
def pdtrbValue (s : State) : Word :=
  if bcr2Porten (s.reg .bcr2) then
    (s.pins4 &&& ~~~s.gpio.dir4).setWidth 32 ||| (s.reg .pdtrb &&& s.gpio.dir4.setWidth 32)
  else s.reg .pdtrb

end Sys2Proof.Machine
end

