-- ==== Sys2Proof/Machine/Dmac.lean ====
section
/-! DEFINITION. The meanings of the DMA controller's operations (41_dmac): the pump, the direct transfer
and the bus operations on the channel registers and `DMAOR`. -/
namespace Sys2Proof.Machine
open Sys2Proof

/-- `DMA_DATA n` (41_dmac R208). -/
def execDmaData (n : Chan) (s : State) : Result := pump n s

/-- `DMA_DDT n` (41_dmac R214). -/
def execDmaDdt (n : Chan) (s : State) : Result := ddt n s

/-- `WR.SAR0` (41_dmac R222). -/
def execWrSar0 (w : Width) (addr data : Word) (s : State) : Result :=
  busWrite (s.cfg.index (.sar 0)) w addr data (fun _ new => checkChannel 0 new) s

/-- `RD.SAR0` (43_regfile R293, R295: plain). -/
def execRdSar0 (w : Width) (addr : Word) (s : State) : Result :=
  busRead w addr (fun s => s.reg (.sar 0)) s

/-- `WR.DAR0` (41_dmac R222). -/
def execWrDar0 (w : Width) (addr data : Word) (s : State) : Result :=
  busWrite (s.cfg.index (.dar 0)) w addr data (fun _ new => checkChannel 0 new) s

/-- `RD.DAR0` (43_regfile R293, R295: plain). -/
def execRdDar0 (w : Width) (addr : Word) (s : State) : Result :=
  busRead w addr (fun s => s.reg (.dar 0)) s

/-- `WR.DMATCR0` (41_dmac R222). -/
def execWrDmatcr0 (w : Width) (addr data : Word) (s : State) : Result :=
  busWrite (s.cfg.index (.dmatcr 0)) w addr data (fun _ new => checkChannel 0 new) s

/-- `RD.DMATCR0` (43_regfile R293, R295: plain). -/
def execRdDmatcr0 (w : Width) (addr : Word) (s : State) : Result :=
  busRead w addr (fun s => s.reg (.dmatcr 0)) s

/-- `WR.CHCR0` (41_dmac R222). -/
def execWrChcr0 (w : Width) (addr data : Word) (s : State) : Result :=
  busWrite (s.cfg.index (.chcr 0)) w addr data (fun _ new => checkChannel 0 new) s

/-- `RD.CHCR0` (43_regfile R293, R295: plain). -/
def execRdChcr0 (w : Width) (addr : Word) (s : State) : Result :=
  busRead w addr (fun s => s.reg (.chcr 0)) s

/-- `WR.SAR1` (41_dmac R222). -/
def execWrSar1 (w : Width) (addr data : Word) (s : State) : Result :=
  busWrite (s.cfg.index (.sar 1)) w addr data (fun _ new => checkChannel 1 new) s

/-- `RD.SAR1` (43_regfile R293, R295: plain). -/
def execRdSar1 (w : Width) (addr : Word) (s : State) : Result :=
  busRead w addr (fun s => s.reg (.sar 1)) s

/-- `WR.DAR1` (41_dmac R222). -/
def execWrDar1 (w : Width) (addr data : Word) (s : State) : Result :=
  busWrite (s.cfg.index (.dar 1)) w addr data (fun _ new => checkChannel 1 new) s

/-- `RD.DAR1` (43_regfile R293, R295: plain). -/
def execRdDar1 (w : Width) (addr : Word) (s : State) : Result :=
  busRead w addr (fun s => s.reg (.dar 1)) s

/-- `WR.DMATCR1` (41_dmac R222). -/
def execWrDmatcr1 (w : Width) (addr data : Word) (s : State) : Result :=
  busWrite (s.cfg.index (.dmatcr 1)) w addr data (fun _ new => checkChannel 1 new) s

/-- `RD.DMATCR1` (43_regfile R293, R295: plain). -/
def execRdDmatcr1 (w : Width) (addr : Word) (s : State) : Result :=
  busRead w addr (fun s => s.reg (.dmatcr 1)) s

/-- `WR.CHCR1` (41_dmac R222). -/
def execWrChcr1 (w : Width) (addr data : Word) (s : State) : Result :=
  busWrite (s.cfg.index (.chcr 1)) w addr data (fun _ new => checkChannel 1 new) s

/-- `RD.CHCR1` (43_regfile R293, R295: plain). -/
def execRdChcr1 (w : Width) (addr : Word) (s : State) : Result :=
  busRead w addr (fun s => s.reg (.chcr 1)) s

/-- `WR.SAR2` (41_dmac R222). -/
def execWrSar2 (w : Width) (addr data : Word) (s : State) : Result :=
  busWrite (s.cfg.index (.sar 2)) w addr data (fun _ new => checkChannel 2 new) s

/-- `RD.SAR2` (43_regfile R293, R295: plain). -/
def execRdSar2 (w : Width) (addr : Word) (s : State) : Result :=
  busRead w addr (fun s => s.reg (.sar 2)) s

/-- `WR.DAR2` (41_dmac R222). -/
def execWrDar2 (w : Width) (addr data : Word) (s : State) : Result :=
  busWrite (s.cfg.index (.dar 2)) w addr data (fun _ new => checkChannel 2 new) s

/-- `RD.DAR2` (43_regfile R293, R295: plain). -/
def execRdDar2 (w : Width) (addr : Word) (s : State) : Result :=
  busRead w addr (fun s => s.reg (.dar 2)) s

/-- `WR.DMATCR2` (41_dmac R222). -/
def execWrDmatcr2 (w : Width) (addr data : Word) (s : State) : Result :=
  busWrite (s.cfg.index (.dmatcr 2)) w addr data (fun _ new => checkChannel 2 new) s

/-- `RD.DMATCR2` (43_regfile R293, R295: plain). -/
def execRdDmatcr2 (w : Width) (addr : Word) (s : State) : Result :=
  busRead w addr (fun s => s.reg (.dmatcr 2)) s

/-- `WR.CHCR2` (41_dmac R222). -/
def execWrChcr2 (w : Width) (addr data : Word) (s : State) : Result :=
  busWrite (s.cfg.index (.chcr 2)) w addr data (fun _ new => checkChannel 2 new) s

/-- `RD.CHCR2` (43_regfile R293, R295: plain). -/
def execRdChcr2 (w : Width) (addr : Word) (s : State) : Result :=
  busRead w addr (fun s => s.reg (.chcr 2)) s

/-- `WR.SAR3` (41_dmac R222). -/
def execWrSar3 (w : Width) (addr data : Word) (s : State) : Result :=
  busWrite (s.cfg.index (.sar 3)) w addr data (fun _ new => checkChannel 3 new) s

/-- `RD.SAR3` (43_regfile R293, R295: plain). -/
def execRdSar3 (w : Width) (addr : Word) (s : State) : Result :=
  busRead w addr (fun s => s.reg (.sar 3)) s

/-- `WR.DAR3` (41_dmac R222). -/
def execWrDar3 (w : Width) (addr data : Word) (s : State) : Result :=
  busWrite (s.cfg.index (.dar 3)) w addr data (fun _ new => checkChannel 3 new) s

/-- `RD.DAR3` (43_regfile R293, R295: plain). -/
def execRdDar3 (w : Width) (addr : Word) (s : State) : Result :=
  busRead w addr (fun s => s.reg (.dar 3)) s

/-- `WR.DMATCR3` (41_dmac R222). -/
def execWrDmatcr3 (w : Width) (addr data : Word) (s : State) : Result :=
  busWrite (s.cfg.index (.dmatcr 3)) w addr data (fun _ new => checkChannel 3 new) s

/-- `RD.DMATCR3` (43_regfile R293, R295: plain). -/
def execRdDmatcr3 (w : Width) (addr : Word) (s : State) : Result :=
  busRead w addr (fun s => s.reg (.dmatcr 3)) s

/-- `WR.CHCR3` (41_dmac R222). -/
def execWrChcr3 (w : Width) (addr data : Word) (s : State) : Result :=
  busWrite (s.cfg.index (.chcr 3)) w addr data (fun _ new => checkChannel 3 new) s

/-- `RD.CHCR3` (43_regfile R293, R295: plain). -/
def execRdChcr3 (w : Width) (addr : Word) (s : State) : Result :=
  busRead w addr (fun s => s.reg (.chcr 3)) s

/-- `WR.DMAOR` (41_dmac R223). -/
def execWrDmaor (w : Width) (addr data : Word) (s : State) : Result :=
  busWrite (s.cfg.index .dmaor) w addr data
    (fun old new => checkAll (new.setReg .dmaor (dmaorKept (old.reg .dmaor) (new.reg .dmaor)))) s

/-- `RD.DMAOR` (43_regfile R293, R295: plain). -/
def execRdDmaor (w : Width) (addr : Word) (s : State) : Result :=
  busRead w addr (fun s => s.reg .dmaor) s

end Sys2Proof.Machine
end

