-- ==== Sys2Proof/Machine/Intc.lean ====
section
/-! DEFINITION. The meanings of the interrupt controller's operations (40_intc): the port operations and
the bus operations on `ICR` and `IPRA`..`IPRD`. -/
namespace Sys2Proof.Machine
open Sys2Proof

/-- `REQUEST s` (40_intc R144). -/
def execRequest (src : Source) (s : State) : Result := .next (requestSource src s)

/-- `UNREQUEST s` (40_intc R145). -/
def execUnrequest (src : Source) (s : State) : Result := .next (unrequestSource src s)

/-- `RECOMPUTE` (40_intc R146). -/
def execRecompute (s : State) : Result := .next (recompute s)

/-- `BOUNDARY d` (40_intc R158). -/
def execBoundary (d : Bool) (s : State) : Result := .next (boundary d s)

/-- `RAISE s` (40_intc R160). -/
def execRaise (src : Source) (s : State) : Result := .next (raiseSource src s)

/-- `SET_IRL i, v` (40_intc R172). -/
def execSetIrl (i : Fin 4) (v : Bool) (s : State) : Result :=
  if icrIrlm s = false then .next s
  else if s.intc.irlLine[i] = v then .next s
  else
    let s1 := s.setIntc { s.intc with irlLine := s.intc.irlLine.set i v }
    .next (if v then requestSource (srcIrl i) s1 else unrequestSource (srcIrl i) s1)

/-- The fifteen values of the combined line that ask for something. -/
def irllValues : List (Fin 15) := List.finRange 15

/-- The combined line shows `v`, 0..15: every `IRLL` source is withdrawn, then `IRLL(v)` is requested
where `v < 15` (40_intc R174). -/
def irlLevelShown (v : BitVec 4) (s : State) : State :=
  let s1 := s.setIntc { s.intc with irlLevel := v }
  let s2 := irllValues.foldl (fun s k => unrequestSource (srcIrll k) s) s1
  if h : v.toNat < 15 then requestSource (srcIrll ⟨v.toNat, h⟩) s2 else s2

/-- `SET_IRLN v`, `v` in two's complement (40_intc R174). -/
def execSetIrln (v : Word) (s : State) : Result :=
  if icrIrlm s then .next s
  else if v.toInt < 0 ∨ 15 < v.toInt then .next (s.emitDiag (.irlLevelOversize v.toInt))
  else .next (irlLevelShown (field v 0 4) s)

/-- `SET_NMI v` (40_intc R176). -/
def execSetNmi (v : Bool) (s : State) : Result :=
  if s.intc.nmiLine = v then .next s
  else
    let s1 := s.setIntc { s.intc with nmiLine := v }
    .next (if v then dmacNmi (requestSource srcNmi s1) else s1)

/-- `intc.prio` with the sources on the nibbles of priority register `r` rewritten from the word `v`
(40_intc R168). -/
def prioWritten (cfg : Config) (r : Fin 4) (v : Word) (p : Vector Prio 64) : Vector Prio 64 :=
  Vector.ofFn fun x : Source => (writtenPrio (cfg.srcEntry x) r v).getD p[x]

/-- The handler of `WR.IPRA`..`WR.IPRD`: its four sources, then one `RECOMPUTE` (40_intc R168). -/
def priorityWritten (r : Fin 4) (new : State) : State :=
  recompute (new.setIntc { new.intc with prio := prioWritten new.cfg r (new.reg (.ipr r)) new.intc.prio })

/-- `WR.ICR` (40_intc R170). -/
def execWrIcr (w : Width) (addr data : Word) (s : State) : Result :=
  busWritePure (s.cfg.index .icr) w addr data (fun _ new => recompute new) s

/-- `RD.ICR` (43_regfile R293, R295: plain). -/
def execRdIcr (w : Width) (addr : Word) (s : State) : Result :=
  busRead w addr (fun s => s.reg .icr) s

/-- `WR.IPRA` (40_intc R168). -/
def execWrIpra (w : Width) (addr data : Word) (s : State) : Result :=
  busWritePure (s.cfg.index (.ipr 0)) w addr data (fun _ new => priorityWritten 0 new) s

/-- `RD.IPRA` (43_regfile R293, R295: plain). -/
def execRdIpra (w : Width) (addr : Word) (s : State) : Result :=
  busRead w addr (fun s => s.reg (.ipr 0)) s

/-- `WR.IPRB` (40_intc R168). -/
def execWrIprb (w : Width) (addr data : Word) (s : State) : Result :=
  busWritePure (s.cfg.index (.ipr 1)) w addr data (fun _ new => priorityWritten 1 new) s

/-- `RD.IPRB` (43_regfile R293, R295: plain). -/
def execRdIprb (w : Width) (addr : Word) (s : State) : Result :=
  busRead w addr (fun s => s.reg (.ipr 1)) s

/-- `WR.IPRC` (40_intc R168). -/
def execWrIprc (w : Width) (addr data : Word) (s : State) : Result :=
  busWritePure (s.cfg.index (.ipr 2)) w addr data (fun _ new => priorityWritten 2 new) s

/-- `RD.IPRC` (43_regfile R293, R295: plain). -/
def execRdIprc (w : Width) (addr : Word) (s : State) : Result :=
  busRead w addr (fun s => s.reg (.ipr 2)) s

/-- `WR.IPRD` (40_intc R168). -/
def execWrIprd (w : Width) (addr data : Word) (s : State) : Result :=
  busWritePure (s.cfg.index (.ipr 3)) w addr data (fun _ new => priorityWritten 3 new) s

/-- `RD.IPRD` (43_regfile R293, R295: plain). -/
def execRdIprd (w : Width) (addr : Word) (s : State) : Result :=
  busRead w addr (fun s => s.reg (.ipr 3)) s

end Sys2Proof.Machine
end

