-- ==== Sys2Proof/Machine/RegFile.lean ====
section
/-! DEFINITION. The meanings of `RESET` (70_reset_and_hazards R370), the two default operations, the
hard-wired registers, the GPIO glue and the other plain registers (43_regfile). -/
namespace Sys2Proof.Machine
open Sys2Proof

/-- The block after `RESET`, which leaves time, memory, the outputs and the CPU core's own registers
(70_reset_and_hazards R370). -/
def resetBlock (s : State) : State :=
  { s with
    cpu := { s.cpu with sr := srReset s.cfg s.cpu.sr, sleep := s.cfg.reset.sleep }
    intc := intcReset s.cfg
    dma := Vector.replicate 4 s.cfg.reset.dma
    tmu := Vector.replicate 3 s.cfg.reset.tmu
    refresh := s.cfg.reset.refresh
    rtcDeadline := some (s.now + s.cfg.cycPerRtcTick)
    gpio := s.cfg.reset.gpio
    regs := regsReset s.cfg }

/-- `RESET` (70_reset_and_hazards R370). -/
def execReset (s : State) : Result := .next (resetBlock s)

/-- `WR.default`: plain storage, and a diagnostic (43_regfile R294). -/
def execWrDefault (w : Width) (addr data : Word) (s : State) : Result :=
  busWritePure (regIndex s.cfg addr) w addr data (fun _ new => new.emitDiag (.unknownRegisterWrite addr)) s

/-- `RD.default`: plain storage, no diagnostic (43_regfile R294). -/
def execRdDefault (w : Width) (addr : Word) (s : State) : Result :=
  busRead w addr (fun s => s.cell (regIndex s.cfg addr)) s

/-- `WR.INTEVT` (43_regfile R292, R295: plain). -/
def execWrIntevt (w : Width) (addr data : Word) (s : State) : Result :=
  busWritePlain (s.cfg.index .intevt) w addr data s

/-- `RD.INTEVT` (43_regfile R293, R295: plain). -/
def execRdIntevt (w : Width) (addr : Word) (s : State) : Result :=
  busRead w addr (fun s => s.reg .intevt) s

/-- `WR.PVR` (43_regfile R297). -/
def execWrPvr (w : Width) (addr _data : Word) (s : State) : Result :=
  busWriteIgnored w addr s

/-- `RD.PVR` (43_regfile R297). -/
def execRdPvr (w : Width) (addr : Word) (s : State) : Result :=
  busRead w addr (fun s => s.cfg.pvrValue) s

/-- `WR.PRR` (43_regfile R298). -/
def execWrPrr (w : Width) (addr _data : Word) (s : State) : Result :=
  busWriteIgnored w addr s

/-- `RD.PRR` (43_regfile R298). -/
def execRdPrr (w : Width) (addr : Word) (s : State) : Result :=
  busRead w addr (fun _ => 0) s

/-- `WR.RSVZ` (43_regfile R299). -/
def execWrRsvz (w : Width) (addr _data : Word) (s : State) : Result :=
  busWriteIgnored w addr s

/-- `RD.RSVZ` (43_regfile R299). -/
def execRdRsvz (w : Width) (addr : Word) (s : State) : Result :=
  busRead w addr (fun _ => 0) s

/-- `WR.BCR2` (43_regfile R292, R295: plain). -/
def execWrBcr2 (w : Width) (addr data : Word) (s : State) : Result :=
  busWritePlain (s.cfg.index .bcr2) w addr data s

/-- `RD.BCR2` (43_regfile R293, R295: plain). -/
def execRdBcr2 (w : Width) (addr : Word) (s : State) : Result :=
  busRead w addr (fun s => s.reg .bcr2) s

/-- `WR.MCR` (43_regfile R292, R295: plain). -/
def execWrMcr (w : Width) (addr data : Word) (s : State) : Result :=
  busWritePlain (s.cfg.index .mcr) w addr data s

/-- `RD.MCR` (43_regfile R293, R295: plain). -/
def execRdMcr (w : Width) (addr : Word) (s : State) : Result :=
  busRead w addr (fun s => s.reg .mcr) s

/-- `WR.PCTRA` (43_regfile R302). -/
def execWrPctra (w : Width) (addr data : Word) (s : State) : Result :=
  busWritePure (s.cfg.index .pctra) w addr data (fun _ new => pctraWritten new) s

/-- `RD.PCTRA` (43_regfile R293, R295: plain). -/
def execRdPctra (w : Width) (addr : Word) (s : State) : Result :=
  busRead w addr (fun s => s.reg .pctra) s

/-- `WR.PDTRA` (43_regfile R303). -/
def execWrPdtra (w : Width) (addr data : Word) (s : State) : Result :=
  busWritePure (s.cfg.index .pdtra) w addr data (fun _ new => gpioPush16 new) s

/-- `RD.PDTRA` (43_regfile R306). -/
def execRdPdtra (w : Width) (addr : Word) (s : State) : Result :=
  busRead w addr pdtraValue s

/-- `WR.PCTRB` (43_regfile R304). -/
def execWrPctrb (w : Width) (addr data : Word) (s : State) : Result :=
  busWritePure (s.cfg.index .pctrb) w addr data (fun _ new => pctrbWritten new) s

/-- `RD.PCTRB` (43_regfile R293, R295: plain). -/
def execRdPctrb (w : Width) (addr : Word) (s : State) : Result :=
  busRead w addr (fun s => s.reg .pctrb) s

/-- `WR.PDTRB` (43_regfile R305). -/
def execWrPdtrb (w : Width) (addr data : Word) (s : State) : Result :=
  busWritePure (s.cfg.index .pdtrb) w addr data (fun _ new => gpioPush4 new) s

/-- `RD.PDTRB` (43_regfile R307). -/
def execRdPdtrb (w : Width) (addr : Word) (s : State) : Result :=
  busRead w addr pdtrbValue s

end Sys2Proof.Machine
end

