-- ==== Sys2Proof/Machine/Timers.lean ====
section
/-! DEFINITION. The meanings of time and the timers' operations (30_encoding R119, 42_timers). -/
namespace Sys2Proof.Machine
open Sys2Proof

/-- `ADVANCE dt` (30_encoding R119). -/
def execAdvance (dt : Word) (s : State) : Result :=
  if advanceEnabled dt s then .next (s.setNow (s.now + dt.toNat)) else .refused .notEnabled

/-- `FIRE t` (30_encoding R119). -/
def execFire (t : TimerId) (s : State) : Result :=
  if timerDue t s then .next (expire t s) else .refused .notEnabled

/-- `WR.RTCSR` (42_timers R258). -/
def execWrRtcsr (w : Width) (addr data : Word) (s : State) : Result :=
  busWritePure (s.cfg.index .rtcsr) w addr data (fun old new => rtcsrWritten old new) s

/-- `RD.RTCSR` (43_regfile R293, R295: plain). -/
def execRdRtcsr (w : Width) (addr : Word) (s : State) : Result :=
  busRead w addr (fun s => s.reg .rtcsr) s

/-- `WR.RTCNT` (42_timers R259). -/
def execWrRtcnt (w : Width) (addr data : Word) (s : State) : Result :=
  busWritePure (s.cfg.index .rtcnt) w addr data (fun _ new => rtcntWritten new) s

/-- `RD.RTCNT` (42_timers R262). -/
def execRdRtcnt (w : Width) (addr : Word) (s : State) : Result :=
  busRead w addr rtcntValue s

/-- `WR.RTCOR` (42_timers R260). -/
def execWrRtcor (w : Width) (addr data : Word) (s : State) : Result :=
  busWritePure (s.cfg.index .rtcor) w addr data (fun _ new => rtcorWritten new) s

/-- `RD.RTCOR` (43_regfile R293, R295: plain). -/
def execRdRtcor (w : Width) (addr : Word) (s : State) : Result :=
  busRead w addr (fun s => s.reg .rtcor) s

/-- `WR.RFCR` (42_timers R261). -/
def execWrRfcr (w : Width) (addr data : Word) (s : State) : Result :=
  busWritePure (s.cfg.index .rfcr) w addr data (fun _ new => rfcrWritten new) s

/-- `RD.RFCR` (43_regfile R293, R295: plain). -/
def execRdRfcr (w : Width) (addr : Word) (s : State) : Result :=
  busRead w addr (fun s => s.reg .rfcr) s

/-- `WR.R64CNT` (43_regfile R292, R295: plain). -/
def execWrR64cnt (w : Width) (addr data : Word) (s : State) : Result :=
  busWritePlain (s.cfg.index .r64cnt) w addr data s

/-- `RD.R64CNT` (43_regfile R293, R295: plain). -/
def execRdR64cnt (w : Width) (addr : Word) (s : State) : Result :=
  busRead w addr (fun s => s.reg .r64cnt) s

/-- `WR.RSECCNT` (43_regfile R292, R295: plain). -/
def execWrRseccnt (w : Width) (addr data : Word) (s : State) : Result :=
  busWritePlain (s.cfg.index .rseccnt) w addr data s

/-- `RD.RSECCNT` (43_regfile R293, R295: plain). -/
def execRdRseccnt (w : Width) (addr : Word) (s : State) : Result :=
  busRead w addr (fun s => s.reg .rseccnt) s

/-- `WR.RMINCNT` (43_regfile R292, R295: plain). -/
def execWrRmincnt (w : Width) (addr data : Word) (s : State) : Result :=
  busWritePlain (s.cfg.index .rmincnt) w addr data s

/-- `RD.RMINCNT` (43_regfile R293, R295: plain). -/
def execRdRmincnt (w : Width) (addr : Word) (s : State) : Result :=
  busRead w addr (fun s => s.reg .rmincnt) s

/-- `WR.RHRCNT` (43_regfile R292, R295: plain). -/
def execWrRhrcnt (w : Width) (addr data : Word) (s : State) : Result :=
  busWritePlain (s.cfg.index .rhrcnt) w addr data s

/-- `RD.RHRCNT` (43_regfile R293, R295: plain). -/
def execRdRhrcnt (w : Width) (addr : Word) (s : State) : Result :=
  busRead w addr (fun s => s.reg .rhrcnt) s

/-- `WR.RWKCNT` (43_regfile R292, R295: plain). -/
def execWrRwkcnt (w : Width) (addr data : Word) (s : State) : Result :=
  busWritePlain (s.cfg.index .rwkcnt) w addr data s

/-- `RD.RWKCNT` (43_regfile R293, R295: plain). -/
def execRdRwkcnt (w : Width) (addr : Word) (s : State) : Result :=
  busRead w addr (fun s => s.reg .rwkcnt) s

/-- `WR.RDAYCNT` (43_regfile R292, R295: plain). -/
def execWrRdaycnt (w : Width) (addr data : Word) (s : State) : Result :=
  busWritePlain (s.cfg.index .rdaycnt) w addr data s

/-- `RD.RDAYCNT` (43_regfile R293, R295: plain). -/
def execRdRdaycnt (w : Width) (addr : Word) (s : State) : Result :=
  busRead w addr (fun s => s.reg .rdaycnt) s

/-- `WR.RMONCNT` (43_regfile R292, R295: plain). -/
def execWrRmoncnt (w : Width) (addr data : Word) (s : State) : Result :=
  busWritePlain (s.cfg.index .rmoncnt) w addr data s

/-- `RD.RMONCNT` (43_regfile R293, R295: plain). -/
def execRdRmoncnt (w : Width) (addr : Word) (s : State) : Result :=
  busRead w addr (fun s => s.reg .rmoncnt) s

/-- `WR.RYRCNT` (43_regfile R292, R295: plain). -/
def execWrRyrcnt (w : Width) (addr data : Word) (s : State) : Result :=
  busWritePlain (s.cfg.index .ryrcnt) w addr data s

/-- `RD.RYRCNT` (43_regfile R293, R295: plain). -/
def execRdRyrcnt (w : Width) (addr : Word) (s : State) : Result :=
  busRead w addr (fun s => s.reg .ryrcnt) s

/-- `WR.RCR1` (43_regfile R292, R295: plain). -/
def execWrRcr1 (w : Width) (addr data : Word) (s : State) : Result :=
  busWritePlain (s.cfg.index .rcr1) w addr data s

/-- `RD.RCR1` (43_regfile R293, R295: plain). -/
def execRdRcr1 (w : Width) (addr : Word) (s : State) : Result :=
  busRead w addr (fun s => s.reg .rcr1) s

/-- `WR.RCR2` (42_timers R265). -/
def execWrRcr2 (w : Width) (addr data : Word) (s : State) : Result :=
  busWritePure (s.cfg.index .rcr2) w addr data (fun old new => rcr2Written old new) s

/-- `RD.RCR2` (43_regfile R293, R295: plain). -/
def execRdRcr2 (w : Width) (addr : Word) (s : State) : Result :=
  busRead w addr (fun s => s.reg .rcr2) s

/-- `WR.TSTR` (42_timers R246). -/
def execWrTstr (w : Width) (addr data : Word) (s : State) : Result :=
  busWritePure (s.cfg.index .tstr) w addr data (fun old new => tstrWritten old new) s

/-- `RD.TSTR` (43_regfile R293, R295: plain). -/
def execRdTstr (w : Width) (addr : Word) (s : State) : Result :=
  busRead w addr (fun s => s.reg .tstr) s

/-- `WR.TCOR0` (43_regfile R292, R295: plain). -/
def execWrTcor0 (w : Width) (addr data : Word) (s : State) : Result :=
  busWritePlain (s.cfg.index (.tcor 0)) w addr data s

/-- `RD.TCOR0` (43_regfile R293, R295: plain). -/
def execRdTcor0 (w : Width) (addr : Word) (s : State) : Result :=
  busRead w addr (fun s => s.reg (.tcor 0)) s

/-- `WR.TCNT0` (42_timers R247). -/
def execWrTcnt0 (w : Width) (addr data : Word) (s : State) : Result :=
  busWritePure (s.cfg.index (.tcnt 0)) w addr data (fun _ new => tcntWritten 0 new) s

/-- `RD.TCNT0` (42_timers R249). -/
def execRdTcnt0 (w : Width) (addr : Word) (s : State) : Result :=
  busRead w addr (tmuLive 0) s

/-- `WR.TCR0` (42_timers R248). -/
def execWrTcr0 (w : Width) (addr data : Word) (s : State) : Result :=
  busWritePure (s.cfg.index (.tcr 0)) w addr data (fun old new => tcrWritten 0 old new) s

/-- `RD.TCR0` (43_regfile R293, R295: plain). -/
def execRdTcr0 (w : Width) (addr : Word) (s : State) : Result :=
  busRead w addr (fun s => s.reg (.tcr 0)) s

/-- `WR.TCOR1` (43_regfile R292, R295: plain). -/
def execWrTcor1 (w : Width) (addr data : Word) (s : State) : Result :=
  busWritePlain (s.cfg.index (.tcor 1)) w addr data s

/-- `RD.TCOR1` (43_regfile R293, R295: plain). -/
def execRdTcor1 (w : Width) (addr : Word) (s : State) : Result :=
  busRead w addr (fun s => s.reg (.tcor 1)) s

/-- `WR.TCNT1` (42_timers R247). -/
def execWrTcnt1 (w : Width) (addr data : Word) (s : State) : Result :=
  busWritePure (s.cfg.index (.tcnt 1)) w addr data (fun _ new => tcntWritten 1 new) s

/-- `RD.TCNT1` (42_timers R249). -/
def execRdTcnt1 (w : Width) (addr : Word) (s : State) : Result :=
  busRead w addr (tmuLive 1) s

/-- `WR.TCR1` (42_timers R248). -/
def execWrTcr1 (w : Width) (addr data : Word) (s : State) : Result :=
  busWritePure (s.cfg.index (.tcr 1)) w addr data (fun old new => tcrWritten 1 old new) s

/-- `RD.TCR1` (43_regfile R293, R295: plain). -/
def execRdTcr1 (w : Width) (addr : Word) (s : State) : Result :=
  busRead w addr (fun s => s.reg (.tcr 1)) s

/-- `WR.TCOR2` (43_regfile R292, R295: plain). -/
def execWrTcor2 (w : Width) (addr data : Word) (s : State) : Result :=
  busWritePlain (s.cfg.index (.tcor 2)) w addr data s

/-- `RD.TCOR2` (43_regfile R293, R295: plain). -/
def execRdTcor2 (w : Width) (addr : Word) (s : State) : Result :=
  busRead w addr (fun s => s.reg (.tcor 2)) s

/-- `WR.TCNT2` (42_timers R247). -/
def execWrTcnt2 (w : Width) (addr data : Word) (s : State) : Result :=
  busWritePure (s.cfg.index (.tcnt 2)) w addr data (fun _ new => tcntWritten 2 new) s

/-- `RD.TCNT2` (42_timers R249). -/
def execRdTcnt2 (w : Width) (addr : Word) (s : State) : Result :=
  busRead w addr (tmuLive 2) s

/-- `WR.TCR2` (42_timers R248). -/
def execWrTcr2 (w : Width) (addr data : Word) (s : State) : Result :=
  busWritePure (s.cfg.index (.tcr 2)) w addr data (fun old new => tcrWritten 2 old new) s

/-- `RD.TCR2` (43_regfile R293, R295: plain). -/
def execRdTcr2 (w : Width) (addr : Word) (s : State) : Result :=
  busRead w addr (fun s => s.reg (.tcr 2)) s

end Sys2Proof.Machine
end

