-- ==== Sys2Proof/Machine/Dispatch.lean ====
section
/-! DEFINITION. One arm per operation, each one call of its meaning. -/
namespace Sys2Proof.Machine
open Sys2Proof

/-- The meaning of an operation. -/
def exec (i : Instr) (s : State) : Host.Outcome State Fault Refusal :=
  match i with
  | .request src => Sys2Proof.Machine.execRequest src s
  | .unrequest src => Sys2Proof.Machine.execUnrequest src s
  | .recompute => Sys2Proof.Machine.execRecompute s
  | .boundary d => Sys2Proof.Machine.execBoundary d s
  | .raise src => Sys2Proof.Machine.execRaise src s
  | .setIrl l v => Sys2Proof.Machine.execSetIrl l v s
  | .setIrln v => Sys2Proof.Machine.execSetIrln v s
  | .setNmi v => Sys2Proof.Machine.execSetNmi v s
  | .dmaData n => Sys2Proof.Machine.execDmaData n s
  | .dmaDdt n => Sys2Proof.Machine.execDmaDdt n s
  | .advance dt => Sys2Proof.Machine.execAdvance dt s
  | .fire t => Sys2Proof.Machine.execFire t s
  | .reset => Sys2Proof.Machine.execReset s
  | .wrIntevt w a d => Sys2Proof.Machine.execWrIntevt w a d s
  | .rdIntevt w a => Sys2Proof.Machine.execRdIntevt w a s
  | .wrPvr w a d => Sys2Proof.Machine.execWrPvr w a d s
  | .rdPvr w a => Sys2Proof.Machine.execRdPvr w a s
  | .wrPrr w a d => Sys2Proof.Machine.execWrPrr w a d s
  | .rdPrr w a => Sys2Proof.Machine.execRdPrr w a s
  | .wrIcr w a d => Sys2Proof.Machine.execWrIcr w a d s
  | .rdIcr w a => Sys2Proof.Machine.execRdIcr w a s
  | .wrIpra w a d => Sys2Proof.Machine.execWrIpra w a d s
  | .rdIpra w a => Sys2Proof.Machine.execRdIpra w a s
  | .wrIprb w a d => Sys2Proof.Machine.execWrIprb w a d s
  | .rdIprb w a => Sys2Proof.Machine.execRdIprb w a s
  | .wrIprc w a d => Sys2Proof.Machine.execWrIprc w a d s
  | .rdIprc w a => Sys2Proof.Machine.execRdIprc w a s
  | .wrIprd w a d => Sys2Proof.Machine.execWrIprd w a d s
  | .rdIprd w a => Sys2Proof.Machine.execRdIprd w a s
  | .wrRsvz w a d => Sys2Proof.Machine.execWrRsvz w a d s
  | .rdRsvz w a => Sys2Proof.Machine.execRdRsvz w a s
  | .wrSar0 w a d => Sys2Proof.Machine.execWrSar0 w a d s
  | .rdSar0 w a => Sys2Proof.Machine.execRdSar0 w a s
  | .wrDar0 w a d => Sys2Proof.Machine.execWrDar0 w a d s
  | .rdDar0 w a => Sys2Proof.Machine.execRdDar0 w a s
  | .wrDmatcr0 w a d => Sys2Proof.Machine.execWrDmatcr0 w a d s
  | .rdDmatcr0 w a => Sys2Proof.Machine.execRdDmatcr0 w a s
  | .wrChcr0 w a d => Sys2Proof.Machine.execWrChcr0 w a d s
  | .rdChcr0 w a => Sys2Proof.Machine.execRdChcr0 w a s
  | .wrSar1 w a d => Sys2Proof.Machine.execWrSar1 w a d s
  | .rdSar1 w a => Sys2Proof.Machine.execRdSar1 w a s
  | .wrDar1 w a d => Sys2Proof.Machine.execWrDar1 w a d s
  | .rdDar1 w a => Sys2Proof.Machine.execRdDar1 w a s
  | .wrDmatcr1 w a d => Sys2Proof.Machine.execWrDmatcr1 w a d s
  | .rdDmatcr1 w a => Sys2Proof.Machine.execRdDmatcr1 w a s
  | .wrChcr1 w a d => Sys2Proof.Machine.execWrChcr1 w a d s
  | .rdChcr1 w a => Sys2Proof.Machine.execRdChcr1 w a s
  | .wrSar2 w a d => Sys2Proof.Machine.execWrSar2 w a d s
  | .rdSar2 w a => Sys2Proof.Machine.execRdSar2 w a s
  | .wrDar2 w a d => Sys2Proof.Machine.execWrDar2 w a d s
  | .rdDar2 w a => Sys2Proof.Machine.execRdDar2 w a s
  | .wrDmatcr2 w a d => Sys2Proof.Machine.execWrDmatcr2 w a d s
  | .rdDmatcr2 w a => Sys2Proof.Machine.execRdDmatcr2 w a s
  | .wrChcr2 w a d => Sys2Proof.Machine.execWrChcr2 w a d s
  | .rdChcr2 w a => Sys2Proof.Machine.execRdChcr2 w a s
  | .wrSar3 w a d => Sys2Proof.Machine.execWrSar3 w a d s
  | .rdSar3 w a => Sys2Proof.Machine.execRdSar3 w a s
  | .wrDar3 w a d => Sys2Proof.Machine.execWrDar3 w a d s
  | .rdDar3 w a => Sys2Proof.Machine.execRdDar3 w a s
  | .wrDmatcr3 w a d => Sys2Proof.Machine.execWrDmatcr3 w a d s
  | .rdDmatcr3 w a => Sys2Proof.Machine.execRdDmatcr3 w a s
  | .wrChcr3 w a d => Sys2Proof.Machine.execWrChcr3 w a d s
  | .rdChcr3 w a => Sys2Proof.Machine.execRdChcr3 w a s
  | .wrDmaor w a d => Sys2Proof.Machine.execWrDmaor w a d s
  | .rdDmaor w a => Sys2Proof.Machine.execRdDmaor w a s
  | .wrBcr2 w a d => Sys2Proof.Machine.execWrBcr2 w a d s
  | .rdBcr2 w a => Sys2Proof.Machine.execRdBcr2 w a s
  | .wrMcr w a d => Sys2Proof.Machine.execWrMcr w a d s
  | .rdMcr w a => Sys2Proof.Machine.execRdMcr w a s
  | .wrRtcsr w a d => Sys2Proof.Machine.execWrRtcsr w a d s
  | .rdRtcsr w a => Sys2Proof.Machine.execRdRtcsr w a s
  | .wrRtcnt w a d => Sys2Proof.Machine.execWrRtcnt w a d s
  | .rdRtcnt w a => Sys2Proof.Machine.execRdRtcnt w a s
  | .wrRtcor w a d => Sys2Proof.Machine.execWrRtcor w a d s
  | .rdRtcor w a => Sys2Proof.Machine.execRdRtcor w a s
  | .wrRfcr w a d => Sys2Proof.Machine.execWrRfcr w a d s
  | .rdRfcr w a => Sys2Proof.Machine.execRdRfcr w a s
  | .wrPctra w a d => Sys2Proof.Machine.execWrPctra w a d s
  | .rdPctra w a => Sys2Proof.Machine.execRdPctra w a s
  | .wrPdtra w a d => Sys2Proof.Machine.execWrPdtra w a d s
  | .rdPdtra w a => Sys2Proof.Machine.execRdPdtra w a s
  | .wrPctrb w a d => Sys2Proof.Machine.execWrPctrb w a d s
  | .rdPctrb w a => Sys2Proof.Machine.execRdPctrb w a s
  | .wrPdtrb w a d => Sys2Proof.Machine.execWrPdtrb w a d s
  | .rdPdtrb w a => Sys2Proof.Machine.execRdPdtrb w a s
  | .wrR64cnt w a d => Sys2Proof.Machine.execWrR64cnt w a d s
  | .rdR64cnt w a => Sys2Proof.Machine.execRdR64cnt w a s
  | .wrRseccnt w a d => Sys2Proof.Machine.execWrRseccnt w a d s
  | .rdRseccnt w a => Sys2Proof.Machine.execRdRseccnt w a s
  | .wrRmincnt w a d => Sys2Proof.Machine.execWrRmincnt w a d s
  | .rdRmincnt w a => Sys2Proof.Machine.execRdRmincnt w a s
  | .wrRhrcnt w a d => Sys2Proof.Machine.execWrRhrcnt w a d s
  | .rdRhrcnt w a => Sys2Proof.Machine.execRdRhrcnt w a s
  | .wrRwkcnt w a d => Sys2Proof.Machine.execWrRwkcnt w a d s
  | .rdRwkcnt w a => Sys2Proof.Machine.execRdRwkcnt w a s
  | .wrRdaycnt w a d => Sys2Proof.Machine.execWrRdaycnt w a d s
  | .rdRdaycnt w a => Sys2Proof.Machine.execRdRdaycnt w a s
  | .wrRmoncnt w a d => Sys2Proof.Machine.execWrRmoncnt w a d s
  | .rdRmoncnt w a => Sys2Proof.Machine.execRdRmoncnt w a s
  | .wrRyrcnt w a d => Sys2Proof.Machine.execWrRyrcnt w a d s
  | .rdRyrcnt w a => Sys2Proof.Machine.execRdRyrcnt w a s
  | .wrRcr1 w a d => Sys2Proof.Machine.execWrRcr1 w a d s
  | .rdRcr1 w a => Sys2Proof.Machine.execRdRcr1 w a s
  | .wrRcr2 w a d => Sys2Proof.Machine.execWrRcr2 w a d s
  | .rdRcr2 w a => Sys2Proof.Machine.execRdRcr2 w a s
  | .wrTstr w a d => Sys2Proof.Machine.execWrTstr w a d s
  | .rdTstr w a => Sys2Proof.Machine.execRdTstr w a s
  | .wrTcor0 w a d => Sys2Proof.Machine.execWrTcor0 w a d s
  | .rdTcor0 w a => Sys2Proof.Machine.execRdTcor0 w a s
  | .wrTcnt0 w a d => Sys2Proof.Machine.execWrTcnt0 w a d s
  | .rdTcnt0 w a => Sys2Proof.Machine.execRdTcnt0 w a s
  | .wrTcr0 w a d => Sys2Proof.Machine.execWrTcr0 w a d s
  | .rdTcr0 w a => Sys2Proof.Machine.execRdTcr0 w a s
  | .wrTcor1 w a d => Sys2Proof.Machine.execWrTcor1 w a d s
  | .rdTcor1 w a => Sys2Proof.Machine.execRdTcor1 w a s
  | .wrTcnt1 w a d => Sys2Proof.Machine.execWrTcnt1 w a d s
  | .rdTcnt1 w a => Sys2Proof.Machine.execRdTcnt1 w a s
  | .wrTcr1 w a d => Sys2Proof.Machine.execWrTcr1 w a d s
  | .rdTcr1 w a => Sys2Proof.Machine.execRdTcr1 w a s
  | .wrTcor2 w a d => Sys2Proof.Machine.execWrTcor2 w a d s
  | .rdTcor2 w a => Sys2Proof.Machine.execRdTcor2 w a s
  | .wrTcnt2 w a d => Sys2Proof.Machine.execWrTcnt2 w a d s
  | .rdTcnt2 w a => Sys2Proof.Machine.execRdTcnt2 w a s
  | .wrTcr2 w a d => Sys2Proof.Machine.execWrTcr2 w a d s
  | .rdTcr2 w a => Sys2Proof.Machine.execRdTcr2 w a s
  | .wrDefault w a d => Sys2Proof.Machine.execWrDefault w a d s
  | .rdDefault w a => Sys2Proof.Machine.execRdDefault w a s

end Sys2Proof.Machine
end

