-- ==== Sys2Proof/Machine/Step.lean ====
section
/-! DEFINITION. One step: the next event of the environment (30_encoding R110). -/
namespace Sys2Proof.Machine
open Sys2Proof

/-- The state with the first event taken off. -/
def State.withEvents (s : State) (es : List Event) : State := { s with events := es }

/-- An event happens: an operation runs, or the environment changes what is its own
(70_reset_and_hazards R386). -/
def happen (e : Event) (s : State) : Host.Outcome State Fault Refusal :=
  match e with
  | .op w =>
    match decode s.cfg w with
    | .ok i => exec i s
    | .error e => .refused (.badEncoding e)
  | .cpu c => .next (s.setCpu c)
  | .pins p16 p4 => .next { s with pins16 := p16, pins4 := p4 }
  | .hand p => .next (s.setPort p)
  | .poke a v => .next (s.setMem (setByte s.mem a v))

/-- One step: the first event happens; with none left nothing does (log 2). -/
def step (s : State) : Host.Outcome State Fault Refusal :=
  match s.events with
  | [] => .next s
  | e :: es => happen e (s.withEvents es)

/-- The state whose next step runs the operation of a table word: its word is the first event. -/
def State.withFetchWord (s : State) (nbits w : Nat) : State :=
  match rawOfTable nbits w with
  | none => s
  | some r => s.withEvents (.op r :: s.events)

end Sys2Proof.Machine
end

