-- ==== Sys2Proof/Safety.lean ====
section
/-! DEFINITION. What a safe run of the block is, in the terms the claims use: the invariants that the spec
gives of its state (10_state R43, R45, R47, R50 to R53; 70_reset_and_hazards R372, R395), the flags'
meanings as propositions, which operation may change what, and the copy loop and the calendar as the spec
writes them. -/
namespace Sys2Proof

/-! ## What an operation accesses -/

/-- The register that a bus write names. -/
def Instr.writesReg (i : Instr) : Option Reg :=
  match i.busAccess with
  | some b => if b.write then b.target else none
  | none => none

/-- The channels whose start check the handler of a register's write runs, in order (41_dmac R222, R223). -/
def Reg.checks (r : Reg) : List Chan :=
  match r with
  | .sar n | .dar n | .dmatcr n | .chcr n => [n]
  | .dmaor => [0, 1, 2, 3]
  | _ => []

/-- The channels whose start check the operation runs. -/
def Instr.checks (i : Instr) : List Chan :=
  match i.writesReg with
  | some r => r.checks
  | none => []

/-! ## The bus operations by their row of 43_regfile R295 -/

/-- The constructor of a bus write. -/
abbrev WriteOp := Width → Word → Word → Instr

/-- The constructor of a bus read. -/
abbrev ReadOp := Width → Word → Instr

/-- The registers whose write is plain (43_regfile R295). -/
def plainWrites : List (WriteOp × Reg) :=
  [(.wrIntevt, .intevt), (.wrBcr2, .bcr2), (.wrMcr, .mcr), (.wrR64cnt, .r64cnt), (.wrRseccnt, .rseccnt),
   (.wrRmincnt, .rmincnt), (.wrRhrcnt, .rhrcnt), (.wrRwkcnt, .rwkcnt), (.wrRdaycnt, .rdaycnt),
   (.wrRmoncnt, .rmoncnt), (.wrRyrcnt, .ryrcnt), (.wrRcr1, .rcr1), (.wrTcor0, .tcor 0),
   (.wrTcor1, .tcor 1), (.wrTcor2, .tcor 2)]

/-- The registers whose read is plain (43_regfile R295). -/
def plainReads : List (ReadOp × Reg) :=
  [(.rdIntevt, .intevt), (.rdIcr, .icr), (.rdIpra, .ipr 0), (.rdIprb, .ipr 1), (.rdIprc, .ipr 2),
   (.rdIprd, .ipr 3), (.rdSar0, .sar 0), (.rdDar0, .dar 0), (.rdDmatcr0, .dmatcr 0), (.rdChcr0, .chcr 0),
   (.rdSar1, .sar 1), (.rdDar1, .dar 1), (.rdDmatcr1, .dmatcr 1), (.rdChcr1, .chcr 1), (.rdSar2, .sar 2),
   (.rdDar2, .dar 2), (.rdDmatcr2, .dmatcr 2), (.rdChcr2, .chcr 2), (.rdSar3, .sar 3), (.rdDar3, .dar 3),
   (.rdDmatcr3, .dmatcr 3), (.rdChcr3, .chcr 3), (.rdDmaor, .dmaor), (.rdBcr2, .bcr2), (.rdMcr, .mcr),
   (.rdRtcsr, .rtcsr), (.rdRtcor, .rtcor), (.rdRfcr, .rfcr), (.rdPctra, .pctra), (.rdPctrb, .pctrb),
   (.rdR64cnt, .r64cnt), (.rdRseccnt, .rseccnt), (.rdRmincnt, .rmincnt), (.rdRhrcnt, .rhrcnt),
   (.rdRwkcnt, .rwkcnt), (.rdRdaycnt, .rdaycnt), (.rdRmoncnt, .rmoncnt), (.rdRyrcnt, .ryrcnt),
   (.rdRcr1, .rcr1), (.rdRcr2, .rcr2), (.rdTstr, .tstr), (.rdTcor0, .tcor 0), (.rdTcr0, .tcr 0),
   (.rdTcor1, .tcor 1), (.rdTcr1, .tcr 1), (.rdTcor2, .tcor 2), (.rdTcr2, .tcr 2)]

/-- The sixteen writes of the channel registers (41_dmac R222). -/
def channelWrites : List (WriteOp × Reg × Chan) :=
  [(.wrSar0, .sar 0, 0), (.wrDar0, .dar 0, 0), (.wrDmatcr0, .dmatcr 0, 0), (.wrChcr0, .chcr 0, 0),
   (.wrSar1, .sar 1, 1), (.wrDar1, .dar 1, 1), (.wrDmatcr1, .dmatcr 1, 1), (.wrChcr1, .chcr 1, 1),
   (.wrSar2, .sar 2, 2), (.wrDar2, .dar 2, 2), (.wrDmatcr2, .dmatcr 2, 2), (.wrChcr2, .chcr 2, 2),
   (.wrSar3, .sar 3, 3), (.wrDar3, .dar 3, 3), (.wrDmatcr3, .dmatcr 3, 3), (.wrChcr3, .chcr 3, 3)]

/-- The four writes of the priority registers (40_intc R168). -/
def priorityWrites : List (WriteOp × Fin 4) := [(.wrIpra, 0), (.wrIprb, 1), (.wrIprc, 2), (.wrIprd, 3)]

/-- The writes that the hard-wired registers ignore (43_regfile R297 to R299). -/
def ignoredWrites : List WriteOp := [.wrPvr, .wrPrr, .wrRsvz]

/-- The reads of the registers that always read 0 (43_regfile R298, R299). -/
def zeroReads : List ReadOp := [.rdPrr, .rdRsvz]

/-- The writes of the TMU counts (42_timers R247). -/
def countWrites : List (WriteOp × TmuChan) := [(.wrTcnt0, 0), (.wrTcnt1, 1), (.wrTcnt2, 2)]

/-- The reads of the TMU counts (42_timers R249). -/
def countReads : List (ReadOp × TmuChan) := [(.rdTcnt0, 0), (.rdTcnt1, 1), (.rdTcnt2, 2)]

/-- The writes of the TMU control words (42_timers R248). -/
def controlWrites : List (WriteOp × TmuChan) := [(.wrTcr0, 0), (.wrTcr1, 1), (.wrTcr2, 2)]

/-- The bits of `arg` that an operand takes, by `op` (30_encoding R115). -/
def argMask (op : Byte) : Word :=
  if op ∈ [0x01, 0x02, 0x05] then 0x3F
  else if op ∈ [0x04, 0x12] then 0x1
  else if op = 0x10 then 0x301
  else if op ∈ [0x11, 0x30] then 0xFFFFFFFF
  else if op ∈ [0x20, 0x21] then 0x3
  else if op = 0x31 then 0xF
  else 0

/-- The 13 `op` codes (30_encoding R115). -/
def portOps : List Byte := [0x01, 0x02, 0x03, 0x04, 0x05, 0x10, 0x11, 0x12, 0x20, 0x21, 0x30, 0x31, 0x3F]

/-! ## The check of the source table -/

/-- Two sources that no mode of `ICR.IRLM` lets request together: a value of the combined line and a discrete
line (40_intc R153). -/
def neverTogether (x y : Source) : Bool :=
  decide (17 ≤ x.val ∧ x.val ≤ 31 ∧ 32 ≤ y.val ∧ y.val ≤ 35) ||
    decide (17 ≤ y.val ∧ y.val ≤ 31 ∧ 32 ≤ x.val ∧ x.val ≤ 35)

/-- Whether the rows of two sources may stand together: no two fixed ones have one (level, sub), but for those
that never request together (40_intc R153). -/
def Config.rowsAgree (cfg : Config) (x y : Source) : Bool :=
  match cfg.srcEntry x, cfg.srcEntry y with
  | .fixed l u, .fixed l' u' => decide (x = y) || !decide (l = l' ∧ u = u') || neverTogether x y
  | _, _ => true

/-- The check of `SRC_TABLE` that 40_intc R153 asks for at construction: the fixed rows agree, and every rank is
below 2048. -/
def Config.tableOk (cfg : Config) : Bool :=
  let ids := (List.finRange 64).filter fun (x : Source) => decide (x.val < cfg.nSrc)
  (ids.all fun x => ids.all fun y => cfg.rowsAgree x y) &&
    ids.all fun x => match cfg.srcEntry x with
      | .fixed l u => decide (l * 256 + u * 16 < 2048)
      | .nibble _ _ => true

namespace Machine

/-- The state after "store masked data" into a named register (43_regfile R292). -/
def State.stored (s : State) (r : Reg) (w : Width) (a d : Word) : State :=
  s.setReg r (laneMerge s.cfg.endian w a (s.reg r) d)

/-! ## The interrupt controller -/

/-- `TestFn` as the spec writes it (40_intc R146). -/
def Passing (s : State) : Prop :=
  s.intc.pending = true ∧ ∃ x : Source, s.intc.requesting[x] = true ∧
    (field s.cpu.sr s.cfg.srImask 4).toNat * 16 < s.intc.prio[x].level * 256 + s.intc.prio[x].sub * 16 ∧
    (bit s.cpu.sr s.cfg.srBl = false ∨ x.val = 16 ∧ bit (s.reg .icr) 9 = true)

/-- The test flag is fresh: it equals `TestFn` (40_intc R147). -/
def FreshTest (s : State) : Prop := s.intc.test = true ↔ Passing s

/-- `a` outranks `b` (40_intc R142). -/
def Outranks (s : State) (a b : Source) : Prop :=
  rank s b < rank s a ∨ rank s a = rank s b ∧ b.val < a.val

/-- `RAISE` accepts the source (40_intc R160, part 1). -/
def Accepts (s : State) (src : Source) : Prop :=
  if src.val = 16 then ¬(bit s.cpu.sr s.cfg.srBl = true ∧ bit (s.reg .icr) 9 = false)
  else bit s.cpu.sr s.cfg.srBl = false ∧ (field s.cpu.sr s.cfg.srImask 4).toNat * 16 < rank s src

/-! ## The DMA controller -/

/-- Channel `n` and the controller are enabled: `CHCRn.DE` = 1, `DMAOR.DME` = 1 (41_dmac R192). -/
def Enabled (s : State) (n : Chan) : Prop := bit (s.reg (.chcr n)) 0 = true ∧ bit (s.reg .dmaor) 0 = true

/-- Nothing holds back a start of channel `n`: it is enabled and idle, no error is latched, and the
transfer-end flag allows it (41_dmac R192). -/
def Ready (s : State) (n : Chan) : Prop :=
  Enabled s n ∧ (s.chan n).active = false ∧ bit (s.reg .dmaor) 2 = false ∧ bit (s.reg .dmaor) 1 = false ∧
  ¬(s.cfg.startRequiresTeClear = true ∧ bit (s.reg (.chcr n)) 1 = true)

/-- The request-source select of channel `n` (10_state R41). -/
def requestSelect (s : State) (n : Chan) : Nat := (field (s.reg (.chcr n)) 8 4).toNat

/-- No access of the unit of `z` bytes at `a` has its address in the register window; a 32-byte unit is four
accesses of 8 bytes (20_memory R82, R84). -/
def UnitFree (cfg : Config) (a : Word) (z : Nat) : Prop :=
  inWindow cfg a = false ∧
  (z = 32 → inWindow cfg (a + 8) = false ∧ inWindow cfg (a + 16) = false ∧ inWindow cfg (a + 24) = false)

/-- No access of the run of `cnt` units of `z` bytes from `base` has its address in the register window. -/
def RunFree (cfg : Config) (base : Word) (z : Nat) (inc : Inc) (cnt : Nat) : Prop :=
  ∀ k < cnt, UnitFree cfg (unitAddr base z inc k) z

/-- No access of a burst of channel `n` has its address in the register window (20_memory R82). -/
def WindowFree (s : State) (n : Chan) : Prop :=
  ∀ p, dmaSetup s n = .ok p →
    RunFree s.cfg (dmaAlign s.cfg.dmaAddrMask (s.reg (.sar n)) p.size) p.size p.incs p.count ∧
    RunFree s.cfg (dmaAlign s.cfg.dmaAddrMask (s.reg (.dar n)) p.size) p.size p.incd p.count

/-! ## The timers -/

/-- TMU channel `n` after `TMU_ARM` with the count and the control word given (42_timers R244). -/
def armedTimer (s : State) (n : TmuChan) (tcnt tcr : Word) : TmuChannel :=
  if s.cfg.tmuDiv.getD (field tcr 0 3).toNat 0 = 0 then { s.timer n with deadline := none }
  else
    { armedAt := s.now,
      deadline := some (s.now +
        max tcnt.toNat 1 * (s.cfg.tmuDiv.getD (field tcr 0 3).toNat 0 * s.cfg.cycPerPclk)) }

/-- The refresh timer after `REF_ARM` with the three registers given (42_timers R254). -/
def armedRefresh (s : State) (rtcor rtcnt rtcsr : Word) : Refresh where
  base := rtcnt.toNat
  armedAt := s.now
  deadline := some (s.now +
    (if (rtcor - rtcnt).toNat % 256 = 0 then 256 else (rtcor - rtcnt).toNat % 256) *
      (refDiv (field rtcsr 3 3) * s.cfg.cycPerBus))

/-! ## The invariants -/

/-- The priority of a source: fixed, or the nibble of its priority register (10_state R45). -/
def prioExpected (s : State) (src : Source) : Prio :=
  match s.cfg.srcEntry src with
  | .fixed level sub => ⟨level, sub⟩
  | .nibble r k => ⟨0, iprNibble (s.reg (.ipr r)) k.val⟩

/-- The controller's derived state agrees with what it derives from (10_state R43, R45). -/
def IntcInv (s : State) : Prop :=
  s.intc.pending = anyRequesting s.intc ∧ ∀ src : Source, s.intc.prio[src] = prioExpected s src

/-- A channel's shape: idle without a deadline, a burst with one, a device transfer with one exactly when
no data is owed (10_state R47, R48; 41_dmac R190). -/
def ChannelInv (c : DmaChannel) : Prop :=
  (c.active = false → c.deadline = none) ∧
  (c.active = true → c.kind = .burst → c.deadline.isSome = true) ∧
  (c.active = true → c.kind = .device →
    (c.deadline.isSome = true ↔ c.devCount = 0) ∧ c.devCount ≤ 0x1000000 ∧
    c.devSize ∈ [1, 2, 4, 8, 32] ∧ c.devIncs ≠ .illegal ∧ c.devIncd ≠ .illegal ∧
    (c.devMode = 2 ∨ c.devMode = 3))

/-- A TMU channel is armed exactly when it is started and its prescaler counts, and then its deadline is
the one of its count (10_state R50, 42_timers R244). -/
def TmuInv (s : State) (n : TmuChan) : Prop :=
  if tstrStr (s.reg .tstr) n = true ∧ tmuDivOf s.cfg (s.reg (.tcr n)) ≠ 0 then
    (s.timer n).armedAt ≤ s.now ∧
    (s.timer n).deadline = some ((s.timer n).armedAt +
      max (s.reg (.tcnt n)).toNat 1 * (tmuDivOf s.cfg (s.reg (.tcr n)) * s.cfg.cycPerPclk))
  else (s.timer n).deadline = none

/-- The refresh timer is armed exactly when it is active, and then its deadline is the one of its count
(10_state R51, 42_timers R254). -/
def RefreshInv (s : State) : Prop :=
  if rtcsrCks (s.reg .rtcsr) ≠ 0 then
    s.refresh.armedAt ≤ s.now ∧ s.refresh.base = (s.reg .rtcnt).toNat ∧
    s.refresh.deadline = some (s.refresh.armedAt +
      refTicks (s.reg .rtcor) (s.reg .rtcnt) * (refDiv (rtcsrCks (s.reg .rtcsr)) * s.cfg.cycPerBus))
  else s.refresh.deadline = none

/-- The GPIO state is the function of the two control words that 43_regfile R301 gives (10_state R53). -/
def GpioAgrees (g : Gpio) (pctra pctrb : Word) : Prop :=
  (∀ a : Fin 16, g.dir16.getLsbD a = bit pctra (2 * a) ∧
    g.pup16.getLsbD a = (!bit pctra (2 * a + 1) && !bit pctra (2 * a))) ∧
  (∀ a : Fin 4, g.dir4.getLsbD a = bit pctrb (2 * a) ∧
    g.pup4.getLsbD a = (!bit pctrb (2 * a + 1) && !bit pctrb (2 * a)))

/-- The values of the registers that a handler masks stay within their width, those of the hard-wired ones,
which have no storage, are 0 (43_regfile R296; 70_reset_and_hazards R371). -/
def WidthsKept (value : Reg → Word) : Prop :=
  (∀ r ∈ [Reg.rtcsr, .rtcnt, .rtcor, .rcr2], (value r).toNat < 2 ^ 8) ∧
  (value .rfcr).toNat < 2 ^ 10 ∧
  (∀ r ∈ [Reg.pvr, .prr, .rsvz], value r = 0)

/-- The parameters agree among themselves, as the default ones do: no two named registers share a cell, and
the reset values leave nothing in flight and no deadline but the clock's, and agree with the functions that
the derived state is of (70_reset_and_hazards R372). The model assumes none of it. -/
structure Coherent (cfg : Config) : Prop where
  separate : cfg.separate = true
  pending : cfg.reset.pending = anyRequesting (intcReset cfg)
  nibbles : ∀ r k : Fin 4, iprNibble (cfg.resetValue (.ipr r)) k.val = cfg.reset.peripheralSub
  regs : WidthsKept cfg.resetValue
  dma : ChannelInv cfg.reset.dma ∧ cfg.reset.dma.deadline = none
  tmu : cfg.reset.tmu.deadline = none ∧
    ∀ n : TmuChan, tstrStr (cfg.resetValue .tstr) n = true → tmuDivOf cfg (cfg.resetValue (.tcr n)) = 0
  refresh : cfg.reset.refresh.deadline = none ∧ rtcsrCks (cfg.resetValue .rtcsr) = 0
  rtc : rcr2Start (cfg.resetValue .rcr2) = true
  gpio : GpioAgrees cfg.reset.gpio (cfg.resetValue .pctra) (cfg.resetValue .pctrb)

/-- The invariant of the block. Every index is one of the file's, below 0x4000 (10_state R29). It says nothing
of the test flag, which the CPU core may make stale by writing its status register (40_intc R147,
70_reset_and_hazards R380). -/
structure Inv (s : State) : Prop where
  cfg : Coherent s.cfg
  mem : Memory.wf s.mem = true
  file : Cells.wf s.regs = true
  regs : WidthsKept s.reg
  range : ∀ i : Nat, 0x4000 ≤ i → s.cell i = 0
  intc : IntcInv s
  dma : ∀ n : Chan, ChannelInv (s.chan n)
  tmu : ∀ n : TmuChan, TmuInv s n
  refresh : RefreshInv s
  rtc : s.rtcDeadline.isSome = rcr2Start (s.reg .rcr2)
  gpio : GpioAgrees s.gpio (s.reg .pctra) (s.reg .pctrb)
  time : noDeadlineBefore s.now s = true

/-! ## What an operation may change -/

/-- The calendar registers. -/
def calendarRegs : List Reg := [.rseccnt, .rmincnt, .rhrcnt, .rwkcnt, .rdaycnt, .rmoncnt, .ryrcnt]

/-- The other registers that the handler of a register's write may write (43_regfile R295). -/
def handlerRegs (cfg : Config) (r : Reg) : List Reg :=
  match r with
  | .sar n | .dar n | .dmatcr n | .chcr n => if cfg.writebackAddr then [.sar n, .dar n] else []
  | .dmaor =>
    if cfg.writebackAddr then [.sar 0, .dar 0, .sar 1, .dar 1, .sar 2, .dar 2, .sar 3, .dar 3] else []
  | .rtcsr | .rtcor => [.rtcnt]
  | .rcr2 => .r64cnt :: calendarRegs
  | .tstr => [.tcnt 0, .tcnt 1, .tcnt 2]
  | .tcr n => [.tcnt n]
  | _ => []

/-- The registers that a timer's expiry writes (41_dmac R218; 42_timers R245, R256, R266). -/
def expiryRegs (t : TimerId) : List Reg :=
  match t with
  | .dma n => [.dmatcr n, .chcr n]
  | .tmu n => [.tcnt n, .tcr n]
  | .ref => [.rtcnt, .rtcsr, .rfcr]
  | .rtc => .r64cnt :: .rcr1 :: calendarRegs

/-- The cells that an operation other than `RESET` may write. -/
def cellsWritten (cfg : Config) (i : Instr) : List Nat :=
  match i with
  | .raise _ | .boundary _ => [cfg.index .intevt]
  | .setNmi _ => [cfg.index .dmaor]
  | .dmaDdt n => [cfg.index (.sar n), cfg.index (.dar n)]
  | .fire t => (expiryRegs t).map cfg.index
  | .wrDefault _ a _ => [regIndex cfg a]
  | .wrPvr _ _ _ | .wrPrr _ _ _ | .wrRsvz _ _ _ => []
  | i => match i.writesReg with
    | some r => (r :: handlerRegs cfg r).map cfg.index
    | none => []

/-! ## The copy loop as the spec writes it (41_dmac R200) -/

/-- `x - z` before an access, for code 2. -/
def stepBefore (inc : Inc) (z : Nat) (x : Word) : Word := if inc = .decrement then x - BitVec.ofNat 32 z else x

/-- `x + z` after an access, for code 1. -/
def stepAfter (inc : Inc) (z : Nat) (x : Word) : Word := if inc = .increment then x + BitVec.ofNat 32 z else x

/-- `repeat cnt times` of the copy loop, with the running addresses. -/
def copyLoop (e : Endian) (z : Nat) (incs incd : Inc) (cnt : Nat) (m : Memory) (src dst : Word) : Copied :=
  match cnt with
  | 0 => ⟨m, src, dst⟩
  | k + 1 =>
    let a := stepBefore incs z src
    let b := stepBefore incd z dst
    copyLoop e z incs incd k (moveUnit e m a b z) (stepAfter incs z a) (stepAfter incd z b)

/-- `x` lies in the `len` bytes from `a`, modulo 2^32. -/
def inSpan (a : Word) (len : Nat) (x : Word) : Prop := (x - a).toNat < len

/-- Which byte of a host word, from the least significant, the byte `i` of a unit of `z` bytes is: a unit of up
to 8 bytes is one memory word in the byte order; of 32 bytes, four of 8 with the first lowest (20_memory R84,
R91; 41_dmac R208; big-endian log 23, the four words log 19). -/
def hostLane (e : Endian) (z i : Nat) : Nat :=
  match e with
  | .little => i
  | .big => 8 * (i / 8) + (min z 8 - 1 - i % 8)

/-- The address `x` is stored to by the burst that channel `n` would start in `s`. -/
def BurstStores (s : State) (n : Chan) (x : Word) : Prop :=
  ∃ p, dmaSetup s n = .ok p ∧ ∃ k < p.count,
    inSpan (unitAddr (dmaAlign s.cfg.dmaAddrMask (s.reg (.dar n)) p.size) p.size p.incd k) p.size x

/-! ## The calendar as a function of its seven registers (42_timers R268)

What `CAL_INC` makes of seven registers that stand on seven cells (`incSecond_calendar` in Laws/Timers.lean). -/

/-- The seven calendar registers. -/
structure Calendar where
  sec : Word
  min : Word
  hr : Word
  wk : Word
  day : Word
  mon : Word
  yr : Word
  deriving DecidableEq, Repr

/-- The calendar that the registers hold. -/
def State.calendar (s : State) : Calendar where
  sec := s.reg .rseccnt
  min := s.reg .rmincnt
  hr := s.reg .rhrcnt
  wk := s.reg .rwkcnt
  day := s.reg .rdaycnt
  mon := s.reg .rmoncnt
  yr := s.reg .ryrcnt

/-- The month stage and the year stage. -/
def calMonth (c : Calendar) : Calendar :=
  if bcdInc c.mon = 0x13 then { c with mon := 1, yr := yearInc c.yr } else { c with mon := bcdInc c.mon }

/-- The weekday stage, which always goes on, and the day stage. -/
def calDay (cfg : Config) (c : Calendar) : Calendar :=
  let c1 := { c with wk := if c.wk + 1 = 7 then 0 else c.wk + 1 }
  if monthDays cfg (bcdValue c.mon) (yearValue c.yr) < bcdValue (bcdInc c.day) then calMonth { c1 with day := 1 }
  else { c1 with day := bcdInc c.day }

/-- The hour stage. -/
def calHour (cfg : Config) (c : Calendar) : Calendar :=
  if bcdInc c.hr = 0x24 then calDay cfg { c with hr := 0 } else { c with hr := bcdInc c.hr }

/-- The minute stage: `CAL_INC(from_minutes)`. -/
def calMinute (cfg : Config) (c : Calendar) : Calendar :=
  if bcdInc c.min = 0x60 then calHour cfg { c with min := 0 } else { c with min := bcdInc c.min }

/-- The second stage: `CAL_INC(from_seconds)`. -/
def calSecond (cfg : Config) (c : Calendar) : Calendar :=
  if bcdInc c.sec = 0x60 then calMinute cfg { c with sec := 0 } else { c with sec := bcdInc c.sec }

/-! ## The calendar in decimal (42_timers R268) -/

/-- A decoded date and time. -/
structure Date where
  sec : Nat
  min : Nat
  hr : Nat
  wk : Nat
  day : Nat
  mon : Nat
  yr : Nat
  deriving DecidableEq, Repr

/-- Two decimal digits, nothing above them. -/
def bcdByte (v : Word) : Bool :=
  decide (v.toNat < 256) && decide ((field v 0 4).toNat < 10) && decide ((field v 4 4).toNat < 10)

/-- Four decimal digits, nothing above them. -/
def bcdYear (v : Word) : Bool :=
  decide (v.toNat < 65536) && decide ((field v 0 4).toNat < 10) && decide ((field v 4 4).toNat < 10) &&
    decide ((field v 8 4).toNat < 10) && decide ((field v 12 4).toNat < 10)

/-- The date that the registers encode. -/
def Calendar.date (c : Calendar) : Date :=
  ⟨bcdValue c.sec, bcdValue c.min, bcdValue c.hr, c.wk.toNat, bcdValue c.day, bcdValue c.mon, yearValue c.yr⟩

/-- The days of a month of the date's year. -/
def Date.monthLength (cfg : Config) (d : Date) : Nat :=
  cfg.monthLen.getD (d.mon - 1) 0 +
    (if d.mon = 2 ∧ (d.yr % 4 = 0 ∧ d.yr % 100 ≠ 0 ∨ d.yr % 400 = 0) then 1 else 0)

/-- The calendar holds a valid date (93 U12). -/
def Calendar.Valid (cfg : Config) (c : Calendar) : Prop :=
  (∀ v ∈ [c.sec, c.min, c.hr, c.day, c.mon], bcdByte v = true) ∧ bcdYear c.yr = true ∧
  c.date.sec < 60 ∧ c.date.min < 60 ∧ c.date.hr < 24 ∧ c.date.wk < 7 ∧
  1 ≤ c.date.mon ∧ c.date.mon ≤ 12 ∧ 1 ≤ c.date.day ∧ c.date.day ≤ c.date.monthLength cfg

/-- The next day: the weekday turns, the day, the month and the year carry, the year 9999 to 0. -/
def Date.nextDay (cfg : Config) (d : Date) : Date :=
  let wk := (d.wk + 1) % 7
  if d.day + 1 ≤ d.monthLength cfg then { d with wk := wk, day := d.day + 1 }
  else if d.mon < 12 then { d with wk := wk, day := 1, mon := d.mon + 1 }
  else { d with wk := wk, day := 1, mon := 1, yr := (d.yr + 1) % 10000 }

/-- The next minute, with the second unchanged. -/
def Date.nextMinute (cfg : Config) (d : Date) : Date :=
  if d.min + 1 < 60 then { d with min := d.min + 1 }
  else if d.hr + 1 < 24 then { d with min := 0, hr := d.hr + 1 }
  else { d.nextDay cfg with min := 0, hr := 0 }

/-- The next second. -/
def Date.nextSecond (cfg : Config) (d : Date) : Date :=
  if d.sec + 1 < 60 then { d with sec := d.sec + 1 } else { d.nextMinute cfg with sec := 0 }

/-! ## Runs -/

/-- The timers fired one after the other. -/
def fireAll (ts : List TimerId) (s : State) : Result :=
  match ts with
  | [] => .next s
  | t :: ts => andThen (exec (.fire t) s) (fireAll ts)

end Machine
end Sys2Proof
end

