-- ==== Sys2Proof/Certificates/Slice0/Obligations.lean ====
section
/-! DEFINITION. The statements for the provers, made from the numbered rules of the spec. They hold for every
value of the parameters of 00_scope R10, which the state carries. A bus operation's premise is that it is well
formed (30_encoding R114, R117): its address lies in the window, on a lane of its width, and selects the
register that the operation names. The premise `separate`, where more than one register counts, is that no two
named registers share a cell, which the names suppose and `RegIndex` as a parameter does not give (20_memory
R81, log 5). -/

section
open Sys2Proof Sys2Proof.Machine

/-! ## Encoding (30_encoding) -/

/-- 30_encoding R114, R115: decoding the word of a well-formed operation gives that operation back, with
every operand at every value that the formats admit, whatever `RegIndex`, `ADDR` and `N_SRC` are. -/
def Obligations.DecodeEncodeRoundTrip : Prop :=
  ∀ (cfg : Config) (i : Instr), i.wellFormed cfg = true → decode cfg (encode i) = .ok i

/-- 30_encoding R114, R115: encoding what a word decodes to gives the word back, up to the bits that no
operand takes (the data of a read, the other bits of `arg`), which become 0. -/
def Obligations.EncodeDecodeCanonical : Prop :=
  (∀ (cfg : Config) (w : BitVec 67) (i : Instr), decode cfg (.b w) = .ok i →
    encode i = .b (if w.getLsbD 66 then w else w &&& 0x7FFFFFFFF00000000)) ∧
  (∀ (cfg : Config) (op : Byte) (arg : Word) (i : Instr), decode cfg (.p (op ++ arg)) = .ok i →
    encode i = .p (op ++ (arg &&& argMask op)))

/-- 30_encoding R114, R115, R117: a word with the width code 3, an unlisted `op`, a source id from `N_SRC` on or
a timer id above 8 decodes to no operation. That every other word decodes to one is the model's reading: a
`B` word outside the window or on a wrong lane is refused when it runs, not by the decoder (log 11, DEDUCED),
and bits of `arg` that no operand takes are not looked at (log 12, DEDUCED). -/
def Obligations.DecodeRejectsReserved : Prop :=
  (∀ (cfg : Config) (w : BitVec 67), (∃ e, decode cfg (.b w) = .error e) ↔ w.extractLsb' 64 2 = 3) ∧
  (∀ (cfg : Config) (op : Byte) (arg : Word), (∃ e, decode cfg (.p (op ++ arg)) = .error e) ↔
    op ∉ portOps ∨ (op ∈ [0x01, 0x02, 0x05] ∧ cfg.nSrc ≤ (field arg 0 6).toNat) ∨
      (op = 0x31 ∧ 8 < (field arg 0 4).toNat))

/-- 30_encoding R114, R115: some words, written out from the formats, and the operations they stand for. -/
def Obligations.SampleWordsDecode : Prop :=
  decodeTableWord 40 0x0100000009 = some (.request 9) ∧
  decodeTableWord 40 0x1000000201 = some (.setIrl 2 true) ∧
  decodeTableWord 40 0x2000000003 = some (.dmaData 3) ∧
  decodeTableWord 40 0x3100000008 = some (.fire .rtc) ∧
  decodeTableWord 40 0x3F00000000 = some .reset ∧
  decodeTableWord 72 0x5FFD0000C00007000 = some (.wrIprc .word 0xFFD0000C 0x7000) ∧
  decodeTableWord 72 0x6FFA0000C00005431 = some (.wrChcr0 .long 0xFFA0000C 0x5431) ∧
  decodeTableWord 72 0x4FFC8003C00000001 = some (.wrRcr2 .byte 0xFFC8003C 0x01) ∧
  decodeTableWord 72 0x1FFD8001600000000 = some (.rdTcor1 .word 0xFFD80016) ∧
  decodeTableWord 72 0x6FF80010000000007 = some (.wrDefault .long 0xFF800100 0x7)

/-! ## Steps and reset (30_encoding R110, 70_reset_and_hazards) -/

/-- 30_encoding R110: a step takes the first event. An operation word runs the operation it decodes to, a
word that decodes to none has no meaning, a fetched table word runs as the first event, and what the
environment owns changes as the event says and nothing else does. `decodeTableWord` reads under the default
parameters. The form of the events is the model's (log 1, log 2). -/
def Obligations.StepRunsDecoded : Prop :=
  (∀ (s : State) (w : RawOp) (es : List Event) (i : Instr), s.events = .op w :: es → decode s.cfg w = .ok i →
    step s = exec i { s with events := es }) ∧
  (∀ (s : State) (w : RawOp) (es : List Event) (e : DecodeError), s.events = .op w :: es →
    decode s.cfg w = .error e → step s = .refused (.badEncoding e)) ∧
  (∀ (s : State) (nbits w : Nat) (r : RawOp) (i : Instr), rawOfTable nbits w = some r →
    decode s.cfg r = .ok i → step (s.withFetchWord nbits w) = exec i s) ∧
  (∀ (s : State) (nbits w : Nat) (i : Instr), s.cfg = defaultConfig → decodeTableWord nbits w = some i →
    step (s.withFetchWord nbits w) = exec i s) ∧
  (∀ (s : State) (es : List Event) (c : Cpu), s.events = .cpu c :: es →
    step s = .next { s with cpu := c, events := es }) ∧
  (∀ (s : State) (es : List Event) (p : BitVec 16) (q : BitVec 4), s.events = .pins p q :: es →
    step s = .next { s with pins16 := p, pins4 := q, events := es }) ∧
  (∀ (s : State) (es : List Event) (p : HostPort), s.events = .hand p :: es →
    step s = .next { s with port := p, events := es }) ∧
  (∀ (s : State) (es : List Event) (a : Word) (v : Byte), s.events = .poke a v :: es →
    ∃ t, step s = .next t ∧ t = { s with mem := t.mem, events := es } ∧
      ∀ x, byteAt t.mem x = if x = a then v else byteAt s.mem x) ∧
  (∀ s : State, s.events = [] → step s = .next s)

/-- 70_reset_and_hazards R370, 10_state R22, R27, R29, R40, R42 to R53: what `RESET` installs, the reset values of
the parameters and, where these are the spec's, the values of its tables; the priorities of NMI, the lines and
level 2 under every parameter, as 00_scope R9 gives them; and what it does not touch. -/
def Obligations.ResetInstalls : Prop :=
  ∀ s : State, ∃ t, exec .reset s = .next t ∧
    t = { s with cpu := t.cpu, intc := t.intc, dma := t.dma, tmu := t.tmu, refresh := t.refresh,
                 rtcDeadline := t.rtcDeadline, gpio := t.gpio, regs := t.regs } ∧
    (∀ i : Nat, (∀ r : Reg, i ≠ s.cfg.index r) → t.cell i = 0) ∧
    (s.cfg.separate = true → ∀ r : Reg, t.reg r = s.cfg.resetValue r) ∧
    t.intc = { requesting := s.cfg.reset.requesting, pending := s.cfg.reset.pending,
               test := s.cfg.reset.test, prio := t.intc.prio, irlLine := s.cfg.reset.irlLine,
               irlLevel := s.cfg.reset.irlLevel, nmiLine := s.cfg.reset.nmiLine } ∧
    (∀ x : Source, t.intc.prio[x] =
      match s.cfg.srcEntry x with
      | .fixed level sub => ⟨level, sub⟩
      | .nibble _ _ => ⟨0, s.cfg.reset.peripheralSub⟩) ∧
    t.intc.prio[srcNmi] = ⟨3, 16⟩ ∧ (∀ k : Fin 15, t.intc.prio[srcIrll k] = ⟨0, 15 - k.val⟩) ∧
    (∀ i : Fin 4, t.intc.prio[srcIrl i] = ⟨0, [13, 10, 7, 4].getD i.val 0⟩) ∧
    (∀ x : Source, t.intc.prio[x].level = 2 → t.intc.prio[x].sub ≤ 10) ∧
    (∀ n : Chan, t.chan n = s.cfg.reset.dma) ∧ (∀ n : TmuChan, t.timer n = s.cfg.reset.tmu) ∧
    t.refresh = s.cfg.reset.refresh ∧ t.gpio = s.cfg.reset.gpio ∧
    t.rtcDeadline = some (s.now + s.cfg.cycPerRtcTick) ∧
    t.cpu = { s.cpu with sr := t.cpu.sr, sleep := s.cfg.reset.sleep } ∧
    (∀ j : Nat, bit t.cpu.sr j =
      if s.cfg.srImask.val ≤ j ∧ j < s.cfg.srImask.val + 4 then
        s.cfg.reset.imask.getLsbD (j - s.cfg.srImask.val)
      else if j = s.cfg.srBl.val then s.cfg.reset.bl
      else if j = s.cfg.srRb.val then s.cfg.reset.rb
      else if j = s.cfg.srMd.val then s.cfg.reset.md
      else bit s.cpu.sr j) ∧
    (s.cfg.reset = defaultReset →
      (s.cfg.separate = true → ∀ r : Reg, t.reg r =
        if r = .rcr2 then 0x09
        else if ∃ n : TmuChan, r = .tcor n ∨ r = .tcnt n then 0xFFFFFFFF
        else 0) ∧
      (∀ x : Source, t.intc.requesting[x] = false) ∧ t.intc.pending = false ∧ t.intc.test = false ∧
      (∀ i : Fin 4, t.intc.irlLine[i] = false) ∧ t.intc.irlLevel = 15 ∧ t.intc.nmiLine = false ∧
      (∀ n : Chan, t.chan n = ⟨false, .burst, none, 0, 0, 0, 0, .fixed, .fixed, 0⟩) ∧
      (∀ n : TmuChan, t.timer n = ⟨none, 0⟩) ∧ t.refresh = ⟨none, 0, 0⟩ ∧
      t.gpio = ⟨0, 0xFFFF, 0, 0xF⟩ ∧ t.cpu.sleep = .run ∧
      (s.cfg.srMd = 30 → s.cfg.srRb = 29 → s.cfg.srBl = 28 → s.cfg.srImask = 4 →
        ∀ j : Nat, bit t.cpu.sr j = (decide (j ∈ [4, 5, 6, 7, 28, 29, 30]) || bit s.cpu.sr j)))

/-- The model's state right after reset meets the invariant, and `RESET` leaves it as it is: every value
that 70_reset_and_hazards R370 installs is in it. The other values are the model's choice (log 4, 6 to 10). -/
def Obligations.ResetStateMeetsInvariant : Prop :=
  Inv State.reset ∧ exec .reset State.reset = .next State.reset

/-- 70_reset_and_hazards R372: after `RESET`, in any state, the invariants used elsewhere hold. The premises
are the model's form of system memory, which `RESET` does not touch, registers on cells of their own, and the
reset values of the spec's tables. -/
def Obligations.ResetEstablishesInvariants : Prop :=
  ∀ s : State, Memory.wf s.mem = true → s.cfg.separate = true → s.cfg.reset = defaultReset →
    ∃ t, exec .reset s = .next t ∧ Inv t ∧ t.intc.pending = false ∧ (∀ x : Source, t.intc.requesting[x] = false) ∧
    FreshTest t ∧ t.intc.test = false ∧
    (∀ r k : Fin 4, iprNibble (t.reg (.ipr r)) k.val = 0) ∧
    t.reg .pctra = 0 ∧ t.reg .pctrb = 0 ∧
    (∀ n : Chan, (t.chan n).active = false) ∧
    rcr2Start (t.reg .rcr2) = true ∧ t.rtcDeadline.isSome = true ∧
    t.reg .tstr = 0 ∧ (∀ n : TmuChan, (t.timer n).deadline = none) ∧
    rtcsrCks (t.reg .rtcsr) = 0 ∧ t.refresh.deadline = none

/-- Every step keeps the invariant of the block, from every state that meets it: 10_state R43, R45, R47,
R50 to R53; 43_regfile R296; 70_reset_and_hazards R395; and the canonical form of the two tables. The
invariant asks of the parameters that they agree among themselves, as the default ones do. -/
def Obligations.StepKeepsInvariant : Prop :=
  ∀ s t : State, Inv s → step s = .next t → Inv t

/-- 40_intc R147: the operations that recompute leave the test flag equal to `TestFn` from any state, and
every operation of the block keeps it so (`RESET` where its values have both flags clear, as the spec's do). -/
def Obligations.TestFlagStaysFresh : Prop :=
  ∀ (i : Instr) (s t : State), i.wellFormed s.cfg = true → s.cfg.separate = true →
    (i = .reset → s.cfg.reset.pending = false ∧ s.cfg.reset.test = false) → exec i s = .next t →
    (FreshTest s → FreshTest t) ∧
    ((i = .recompute ∨ (∃ x : Source, i = .request x ∧ s.intc.requesting[x] = false) ∨
      (∃ x : Source, i = .unrequest x ∧ s.intc.requesting[x] = true) ∨
      (∃ x, i = .raise x ∧ Accepts s x) ∨
      (∃ p ∈ priorityWrites, ∃ w a d, i = p.1 w a d) ∨ (∃ w a d, i = .wrIcr w a d)) → FreshTest t)

/-! ## The interrupt controller (40_intc) -/

/-- 40_intc R144: `REQUEST s` marks an idle source, sets the pending flag and recomputes the test flag; a
source that already requests is left alone; an id from `N_SRC` on is refused. -/
def Obligations.RequestMarksSource : Prop :=
  (∀ (x : Source) (s : State), s.intc.requesting[x] = true → exec (.request x) s = .next s) ∧
  (∀ (x : Source) (s : State), s.intc.requesting[x] = false → ∃ t, exec (.request x) s = .next t ∧
    t = { s with intc := { s.intc with requesting := t.intc.requesting, pending := true,
                                       test := t.intc.test } } ∧
    (∀ y : Source, t.intc.requesting[y] = (decide (y = x) || s.intc.requesting[y])) ∧
    (t.intc.test = true ↔ Passing t)) ∧
  (∀ (cfg : Config) (arg : Word), cfg.nSrc ≤ (field arg 0 6).toNat →
    decode cfg (.p ((0x01 : Byte) ++ arg)) = .error (.badSource (field arg 0 6)))

/-- 40_intc R145: `UNREQUEST s` clears a requesting source and recomputes both flags, leaves an idle one
alone, and undoes a `REQUEST s` exactly where the source was idle and both flags were fresh. -/
def Obligations.UnrequestClearsSource : Prop :=
  (∀ (x : Source) (s : State), s.intc.requesting[x] = false → exec (.unrequest x) s = .next s) ∧
  (∀ (x : Source) (s : State), s.intc.requesting[x] = true → ∃ t, exec (.unrequest x) s = .next t ∧
    t = { s with intc := { s.intc with requesting := t.intc.requesting, pending := t.intc.pending,
                                       test := t.intc.test } } ∧
    (∀ y : Source, t.intc.requesting[y] = (!decide (y = x) && s.intc.requesting[y])) ∧
    (t.intc.pending = true ↔ ∃ y : Source, t.intc.requesting[y] = true) ∧
    (t.intc.test = true ↔ Passing t)) ∧
  (∀ (x : Source) (s : State), andThen (exec (.request x) s) (exec (.unrequest x)) = .next s ↔
    s.intc.requesting[x] = false ∧ FreshTest s ∧
      (s.intc.pending = true ↔ ∃ y : Source, s.intc.requesting[y] = true))

/-- 40_intc R146: `RECOMPUTE` sets or clears the test flag by `TestFn` and does nothing else. -/
def Obligations.RecomputeEvaluatesTestFn : Prop :=
  ∀ s : State, ∃ t, exec .recompute s = .next t ∧
    t = { s with intc := { s.intc with test := t.intc.test } } ∧ (t.intc.test = true ↔ Passing s)

/-- 40_intc R141, R143: the rank, and which sources exceed the mask: every source of a level from 1 on,
a level-0 source exactly when its sub-priority is above the mask, so never with sub-priority 0. -/
def Obligations.MaskComparesRank : Prop :=
  ∀ (s : State) (x : Source),
    rank s x = s.intc.prio[x].level * 256 + s.intc.prio[x].sub * 16 ∧
    (exceeds s x = true ↔ (field s.cpu.sr s.cfg.srImask 4).toNat * 16 < rank s x) ∧
    (1 ≤ s.intc.prio[x].level → exceeds s x = true) ∧
    (s.intc.prio[x].level = 0 →
      (exceeds s x = true ↔ (field s.cpu.sr s.cfg.srImask 4).toNat < s.intc.prio[x].sub)) ∧
    (s.intc.prio[x].level = 0 → s.intc.prio[x].sub = 0 → exceeds s x = false)

/-- 40_intc R142, R156: `SELECT` returns the requesting source that outranks every other requesting one,
none when nothing requests; where the winner does not exceed the mask, no requesting source does. -/
def Obligations.SelectFindsHighest : Prop :=
  ∀ s : State,
    (select s = none ↔ ∀ y : Source, s.intc.requesting[y] = false) ∧
    (∀ x : Source, select s = some x ↔
      s.intc.requesting[x] = true ∧
        ∀ y : Source, s.intc.requesting[y] = true → y ≠ x → Outranks s x y) ∧
    (∀ x : Source, select s = some x → exceeds s x = false →
      ∀ y : Source, s.intc.requesting[y] = true → exceeds s y = false)

/-- 40_intc R158: `BOUNDARY d` always completes; with a delay pending, a clear test flag or nothing
requesting it does nothing, else it raises the source that outranks every other requesting one. -/
def Obligations.BoundaryDispatchesHighest : Prop :=
  ∀ (d : Bool) (s : State),
    (∃ t, exec (.boundary d) s = .next t) ∧
    (d = true ∨ s.intc.test = false ∨ (∀ y : Source, s.intc.requesting[y] = false) →
      exec (.boundary d) s = .next s) ∧
    (∀ x : Source, d = false → s.intc.test = true → s.intc.requesting[x] = true →
      (∀ y : Source, s.intc.requesting[y] = true → y ≠ x → Outranks s x y) →
      exec (.boundary d) s = exec (.raise x) s)

/-- 40_intc R160: `RAISE s`, declined, does nothing (while `BL` = 1, every one but that of NMI with
`ICR.NMIB` = 1); accepted, what it saves, writes, clears and emits, and where control goes. The status
register is saved before `MD`, `RB` and `BL` are set; the source is cleared for NMI and the four DMA
completions alone. -/
def Obligations.RaiseEntersOrDeclines : Prop :=
  (∀ (x : Source) (s : State), ¬Accepts s x → exec (.raise x) s = .next s) ∧
  (∀ (x : Source) (s : State), bit s.cpu.sr s.cfg.srBl = true → ¬(x.val = 16 ∧ bit (s.reg .icr) 9 = true) →
    exec (.raise x) s = .next s) ∧
  ∀ (x : Source) (s : State), Accepts s x → ∃ t, exec (.raise x) s = .next t ∧
    t = { s with cpu := t.cpu, intc := t.intc, regs := t.regs, outputs := t.outputs } ∧
    t.cpu = { s.cpu with
      spc := s.cpu.pc, ssr := s.cpu.sr, sgr := s.cpu.r15, sr := t.cpu.sr,
      pc := s.cpu.vbr + s.cfg.vecOffset.getD x.val 0,
      sleep := if s.cpu.sleep = .sleeping then .wakePending else s.cpu.sleep } ∧
    (∀ j : Nat, bit t.cpu.sr j =
      (decide (j = s.cfg.srMd.val ∨ j = s.cfg.srRb.val ∨ j = s.cfg.srBl.val) || bit s.cpu.sr j)) ∧
    (∀ i : Nat, t.cell i =
      if i = s.cfg.index .intevt then s.cfg.evtCode.getD x.val 0 else s.cell i) ∧
    t.outputs = s.outputs ++
      [.irqAck (s.cfg.ackArg.getD x.val 0), .diag (if x.val = 16 then .nmiRaised x else .irqRaised x)] ∧
    t.intc = { s.intc with requesting := t.intc.requesting, pending := t.intc.pending,
                           test := t.intc.test } ∧
    (∀ y : Source, t.intc.requesting[y] =
      (s.intc.requesting[y] && !(decide (y = x) && decide (x.val ∈ [16, 44, 45, 46, 47])))) ∧
    (x.val ∈ [16, 44, 45, 46, 47] ∧ s.intc.requesting[x] = true →
      (t.intc.pending = true ↔ ∃ y : Source, t.intc.requesting[y] = true)) ∧
    (¬(x.val ∈ [16, 44, 45, 46, 47] ∧ s.intc.requesting[x] = true) → t.intc.pending = s.intc.pending) ∧
    (t.intc.test = true ↔ Passing t)

/-- 40_intc R172: `SET_IRL i, v` does nothing while the combined line is selected or the line shows `v`
already; else it records the line and requests, or withdraws, source 32 + i. -/
def Obligations.SetIrlTracksEdges : Prop :=
  ∀ (i : Fin 4) (v : Bool) (s : State),
    (srcIrl i).val = 32 + i.val ∧
    (bit (s.reg .icr) 7 = false ∨ s.intc.irlLine[i] = v → exec (.setIrl i v) s = .next s) ∧
    (bit (s.reg .icr) 7 = true → s.intc.irlLine[i] ≠ v → ∃ t, exec (.setIrl i v) s = .next t ∧
      exec (if v then .request (srcIrl i) else .unrequest (srcIrl i))
        { s with intc := { s.intc with irlLine := s.intc.irlLine.set i v } } = .next t)

/-- 40_intc R174: `SET_IRLN v` does nothing while the discrete lines are selected, only logs a value
outside 0..15, and else leaves source 17 + v as the one combined-line source that requests, none for 15. -/
def Obligations.SetIrlnShowsLevel : Prop :=
  ∀ (v : Word) (s : State),
    (bit (s.reg .icr) 7 = true → exec (.setIrln v) s = .next s) ∧
    (bit (s.reg .icr) 7 = false → v.toInt < 0 ∨ 15 < v.toInt →
      exec (.setIrln v) s = .next { s with outputs := s.outputs ++ [.diag (.irlLevelOversize v.toInt)] }) ∧
    (bit (s.reg .icr) 7 = false → 0 ≤ v.toInt → v.toInt ≤ 15 → ∃ t, exec (.setIrln v) s = .next t ∧
      t = { s with intc := { s.intc with irlLevel := field v 0 4, requesting := t.intc.requesting,
                                         pending := t.intc.pending, test := t.intc.test } } ∧
      (∀ y : Source, t.intc.requesting[y] =
        if 17 ≤ y.val ∧ y.val ≤ 31 then decide (y.val = 17 + v.toNat) else s.intc.requesting[y]) ∧
      (v.toNat < 15 → t.intc.pending = true ∧ (t.intc.test = true ↔ Passing t)) ∧
      (v.toNat = 15 → (∃ y : Source, 17 ≤ y.val ∧ y.val ≤ 31 ∧ s.intc.requesting[y] = true) →
        (t.intc.pending = true ↔ ∃ y : Source, t.intc.requesting[y] = true) ∧
        (t.intc.test = true ↔ Passing t)) ∧
      (v.toNat = 15 → (∀ y : Source, 17 ≤ y.val → y.val ≤ 31 → s.intc.requesting[y] = false) →
        t.intc.pending = s.intc.pending ∧ t.intc.test = s.intc.test))

/-- 40_intc R176, 41_dmac R220: `SET_NMI v` does nothing without an edge; a release only records the line;
an assertion requests source 16, latches `DMAOR.NMIF` and cancels every channel in flight, one diagnostic
each in channel order, leaving memory and the channel registers. -/
def Obligations.SetNmiRequestsAndCancels : Prop :=
  ∀ s : State,
    (∀ v : Bool, s.intc.nmiLine = v → exec (.setNmi v) s = .next s) ∧
    (s.intc.nmiLine = true →
      exec (.setNmi false) s = .next { s with intc := { s.intc with nmiLine := false } }) ∧
    (s.intc.nmiLine = false → s.cfg.separate = true → ∃ t, exec (.setNmi true) s = .next t ∧
      t = { s with intc := { s.intc with nmiLine := true, requesting := t.intc.requesting,
                                         pending := t.intc.pending, test := t.intc.test },
                   dma := t.dma, regs := t.regs, outputs := t.outputs } ∧
      (∀ y : Source, t.intc.requesting[y] = (decide (y.val = 16) || s.intc.requesting[y])) ∧
      (s.intc.requesting[srcNmi] = true →
        t.intc.pending = s.intc.pending ∧ t.intc.test = s.intc.test) ∧
      (s.intc.requesting[srcNmi] = false → t.intc.pending = true ∧ (t.intc.test = true ↔ Passing t)) ∧
      (∀ i : Nat, t.cell i = if i = s.cfg.index .dmaor then s.reg .dmaor ||| 2 else s.cell i) ∧
      (∀ n : Chan, t.chan n =
        if (s.chan n).active then { s.chan n with active := false, deadline := none } else s.chan n) ∧
      t.outputs = s.outputs ++
        ((([0, 1, 2, 3] : List Chan).filter fun n => (s.chan n).active).map
          fun n => .diag (.dmaCancelledByNmi n)))

/-- 40_intc R168, R152: a write of priority register `r` stores, gives the sources that the source table puts on
its nibbles level 0 and their nibbles as sub-priorities, leaves every other source, NMI and the lines under
every table (90_conflicts C3), and recomputes the test flag; under the spec's table the four sources are those from
36 + 4r on, the first on the highest nibble. -/
def Obligations.PriorityWriteUpdatesFourSources : Prop :=
  ∀ p ∈ priorityWrites, ∀ (w : Width) (a d : Word) (s : State), (p.1 w a d).wellFormed s.cfg = true →
    ∃ t, exec (p.1 w a d) s = .next t ∧
      t = { s.stored (.ipr p.2) w a d with
            intc := { s.intc with prio := t.intc.prio, test := t.intc.test } } ∧
      (∀ y : Source, t.intc.prio[y] =
        match s.cfg.srcEntry y with
        | .fixed _ _ => s.intc.prio[y]
        | .nibble r k => if r = p.2 then
            ⟨0, (field ((s.stored (.ipr p.2) w a d).reg (.ipr p.2)) (4 * k.val) 4).toNat⟩
          else s.intc.prio[y]) ∧
      (∀ y : Source, 16 ≤ y.val → y.val ≤ 35 → t.intc.prio[y] = s.intc.prio[y]) ∧
      (s.cfg.srcLow = defaultSrcLow → s.cfg.srcHigh = defaultSrcHigh → ∀ y : Source, t.intc.prio[y] =
        if 36 + 4 * p.2.val ≤ y.val ∧ y.val < 40 + 4 * p.2.val then
          ⟨0, (field ((s.stored (.ipr p.2) w a d).reg (.ipr p.2)) (4 * (3 - (y.val - 36) % 4)) 4).toNat⟩
        else s.intc.prio[y]) ∧
      (t.intc.test = true ↔ Passing t)

/-- 40_intc R170: a write of `ICR` stores and recomputes the test flag; it requests and withdraws nothing. -/
def Obligations.ControlWriteRecomputes : Prop :=
  ∀ (w : Width) (a d : Word) (s : State), (Instr.wrIcr w a d).wellFormed s.cfg = true →
    ∃ t, exec (.wrIcr w a d) s = .next t ∧
      t = { s.stored .icr w a d with intc := { s.intc with test := t.intc.test } } ∧
      (t.intc.test = true ↔ Passing t)

/-! ## The DMA controller (41_dmac) -/

/-- 41_dmac R192, R222, R196: a write of a channel register stores and runs the start check of its channel
on the merged cells. It only stores where the channel is in flight and enabled, or is idle and not both
enabled and ready, or has a request select outside 2..6; it cancels a channel in flight that is no longer
enabled; an illegal increment, then a reserved size, makes the start fail with a diagnostic alone. -/
def Obligations.ChannelWriteWithoutTransfer : Prop :=
  ∀ p ∈ channelWrites, ∀ (w : Width) (a d : Word) (s s1 : State) (n : Chan),
    (p.1 w a d).wellFormed s.cfg = true → n = p.2.2 → s1 = s.stored p.2.1 w a d →
    exec (p.1 w a d) s = checkChannel n s1 ∧
    (Enabled s1 n → ¬Ready s1 n ∨ requestSelect s1 n ∉ [2, 3, 4, 5, 6] →
      exec (p.1 w a d) s = .next s1) ∧
    (¬Enabled s1 n → (s1.chan n).active = false → exec (p.1 w a d) s = .next s1) ∧
    (¬Enabled s1 n → (s1.chan n).active = true → ∃ t, exec (p.1 w a d) s = .next t ∧
      t = { s1 with dma := t.dma, outputs := s1.outputs ++ [.diag (.dmaCancelledByDisable n)] } ∧
      ∀ m : Chan, t.chan m =
        if m = n then { s1.chan n with active := false, deadline := none } else s1.chan m) ∧
    (Ready s1 n → requestSelect s1 n ∈ [2, 3, 4, 5, 6] →
      field (s1.reg (.chcr n)) 12 2 = 3 ∨ field (s1.reg (.chcr n)) 14 2 = 3 →
      exec (p.1 w a d) s = .next { s1 with outputs := s1.outputs ++ [.diag (.dmaBadIncrement n)] }) ∧
    (Ready s1 n → requestSelect s1 n ∈ [2, 3, 4, 5, 6] →
      field (s1.reg (.chcr n)) 12 2 ≠ 3 → field (s1.reg (.chcr n)) 14 2 ≠ 3 →
      5 ≤ (field (s1.reg (.chcr n)) 4 3).toNat →
      exec (p.1 w a d) s = .next { s1 with outputs := s1.outputs ++ [.diag (.dmaBadSize n)] })

/-- 41_dmac R196, R200: a write of a channel register that finds its channel ready, with a request select 4..6
and legal increments and size, copies the whole block by the copy loop, arms the completion timer, and writes
the final addresses back only under `DMA_WRITEBACK_ADDR`. `DMA_BURST_DELAY` is the parameter, held as a linear
function with listed exceptions (log 21). 20_memory R82 refuses an access that falls in the register window;
that the whole write is then refused is the model's reading (log 14, DEDUCED). -/
def Obligations.ChannelWriteStartsBurst : Prop :=
  ∀ q ∈ channelWrites, ∀ (w : Width) (a d : Word) (s s1 : State) (n : Chan) (p : DmaSetup),
    (q.1 w a d).wellFormed s.cfg = true → n = q.2.2 → s1 = s.stored q.2.1 w a d →
    Ready s1 n → requestSelect s1 n ∈ [4, 5, 6] →
    p.incs ≠ .illegal → p.incs = Inc.ofCode (field (s1.reg (.chcr n)) 12 2) →
    p.incd ≠ .illegal → p.incd = Inc.ofCode (field (s1.reg (.chcr n)) 14 2) →
    p.size ≠ 0 → p.size = [8, 1, 2, 4, 32, 0, 0, 0].getD (field (s1.reg (.chcr n)) 4 3).toNat 0 →
    p.count = (if (field (s1.reg (.dmatcr n)) 0 24).toNat = 0 then 0x1000000
      else (field (s1.reg (.dmatcr n)) 0 24).toNat) →
    (WindowFree s1 n → ∃ t r, exec (q.1 w a d) s = .next t ∧
      r = copyLoop s.cfg.endian p.size p.incs p.incd p.count s1.mem
        (dmaAlign s.cfg.dmaAddrMask (s1.reg (.sar n)) p.size)
        (dmaAlign s.cfg.dmaAddrMask (s1.reg (.dar n)) p.size) ∧
      t = { s1 with mem := r.mem, dma := t.dma, regs := t.regs } ∧
      (∀ m : Chan, t.chan m =
        if m = n then { s1.chan n with
          active := true, kind := .burst,
          deadline := some (s.now + (s.cfg.burstDelayOther.lookup p.count).getD
            (s.cfg.burstDelayMul * p.count + s.cfg.burstDelayAdd)) }
        else s1.chan m) ∧
      (∀ i : Nat, t.cell i =
        if s.cfg.writebackAddr = true ∧ i = s.cfg.index (.dar n) then r.dst
        else if s.cfg.writebackAddr = true ∧ i = s.cfg.index (.sar n) then r.src
        else s1.cell i)) ∧
    (¬WindowFree s1 n → exec (q.1 w a d) s = .refused .dmaIntoWindow)

/-- 41_dmac R204: a write of a channel register that finds its channel ready, with a request select 2 or 3
and legal increments and size, latches the parameters, arms nothing, moves nothing and signals the device. -/
def Obligations.ChannelWriteStartsDevice : Prop :=
  ∀ q ∈ channelWrites, ∀ (w : Width) (a d : Word) (s s1 : State) (n : Chan) (p : DmaSetup),
    (q.1 w a d).wellFormed s.cfg = true → n = q.2.2 → s1 = s.stored q.2.1 w a d →
    Ready s1 n → requestSelect s1 n ∈ [2, 3] →
    p.incs ≠ .illegal → p.incs = Inc.ofCode (field (s1.reg (.chcr n)) 12 2) →
    p.incd ≠ .illegal → p.incd = Inc.ofCode (field (s1.reg (.chcr n)) 14 2) →
    p.size ≠ 0 → p.size = [8, 1, 2, 4, 32, 0, 0, 0].getD (field (s1.reg (.chcr n)) 4 3).toNat 0 →
    p.count = (if (field (s1.reg (.dmatcr n)) 0 24).toNat = 0 then 0x1000000
      else (field (s1.reg (.dmatcr n)) 0 24).toNat) →
    ∃ t, exec (q.1 w a d) s = .next t ∧
      t = { s1 with dma := t.dma,
                    outputs := s1.outputs ++ [.dmaReady n (field (s1.reg (.chcr n)) 8 4)] } ∧
      ∀ m : Chan, t.chan m =
        if m = n then
          { active := true, kind := .device, deadline := none,
            devSrc := s1.reg (.sar n), devDst := s1.reg (.dar n), devCount := p.count,
            devSize := p.size, devIncs := p.incs, devIncd := p.incd,
            devMode := field (s1.reg (.chcr n)) 8 4 }
        else s1.chan m

/-- 41_dmac R223: a write of `DMAOR` cannot set `AE` or `NMIF`, then runs the four checks in channel order
(the checks that a channel write runs). It completes where no channel's block meets the register window, the
registers' cells being separate (a write-back of one channel's addresses then leaves the other channels' alone);
with `DME` cleared it cancels every channel in flight, one diagnostic each; where no channel can start or
must stop it only stores. -/
def Obligations.OperationWriteChecksAll : Prop :=
  ∀ (w : Width) (a d : Word) (s : State), (Instr.wrDmaor w a d).wellFormed s.cfg = true →
    ∃ (k : Word) (s1 : State), s1 = s.setReg .dmaor k ∧
    (∀ j : Nat, bit k j = (bit ((s.stored .dmaor w a d).reg .dmaor) j &&
      (!decide (j = 1 ∨ j = 2) || bit (s.reg .dmaor) j))) ∧
    exec (.wrDmaor w a d) s =
      andThen (andThen (andThen (checkChannel 0 s1) (checkChannel 1)) (checkChannel 2)) (checkChannel 3) ∧
    (s.cfg.separate = true → (∀ n : Chan, WindowFree s1 n) → ∃ t, exec (.wrDmaor w a d) s = .next t) ∧
    (bit k 0 = false → ∃ t, exec (.wrDmaor w a d) s = .next t ∧
      t = { s1 with dma := t.dma, outputs := s.outputs ++
        ((([0, 1, 2, 3] : List Chan).filter fun n => (s.chan n).active).map
          fun n => .diag (.dmaCancelledByDisable n)) } ∧
      ∀ n : Chan, t.chan n =
        if (s.chan n).active then { s.chan n with active := false, deadline := none } else s.chan n) ∧
    ((∀ n : Chan, (Enabled s1 n ∧ (¬Ready s1 n ∨ requestSelect s1 n ∉ [2, 3, 4, 5, 6])) ∨
        (¬Enabled s1 n ∧ (s1.chan n).active = false)) →
      exec (.wrDmaor w a d) s = .next s1)

/-- 41_dmac R200, 20_memory R84: the copy loop with running addresses, a decrement before each access and an
increment after it, moves the units that the closed form of the addresses says, in that order, and ends at its
final addresses; a move copies the bytes of its unit one to one, under both byte orders (a 32-byte unit, moved
as four of 8, where both addresses are aligned to it, as 20_memory R86 makes them). -/
def Obligations.CopyLoopHasClosedForm : Prop :=
  (∀ (e : Endian) (m : Memory) (src dst : Word) (z : Nat) (x : Word),
    z ∈ [1, 2, 4, 8] ∨ z = 32 ∧ src.toNat % 32 = 0 ∧ dst.toNat % 32 = 0 →
    byteAt (moveUnit e m src dst z) x =
      if (x - dst).toNat < z then byteAt m (src + (x - dst)) else byteAt m x) ∧
  ∀ (e : Endian) (z : Nat) (incs incd : Inc) (cnt : Nat) (m : Memory) (src dst : Word),
    copyLoop e z incs incd cnt m src dst =
      ⟨copyUnits e src dst z incs incd cnt m, endAddr src z incs cnt, endAddr dst z incd cnt⟩

/-- 20_memory R82, R84, R86: a DMA address is masked and then aligned to its unit; the window test on the span of
a run, which does not walk it, is exact: it says that some access of the run, one for each unit or four for each
32-byte unit, has its address in the register window, whatever the window is, for every run that spans no more
than the address space. -/
def Obligations.WindowTestIsExact : Prop :=
  (∀ (mask a : Word) (z : Nat), z ∈ [1, 2, 4, 8, 32] →
    (dmaAlign mask a z).toNat = (a &&& mask).toNat - (a &&& mask).toNat % z) ∧
  ∀ (cfg : Config) (base : Word) (z : Nat) (inc : Inc) (cnt : Nat), 1 ≤ z → cnt * z ≤ 0x100000000 →
    (runMeetsWindow cfg base z inc cnt = true ↔ ¬RunFree cfg base z inc cnt)

/-- 41_dmac R201: the round trip of a burst of longwords with increment on both sides: the destination holds
a byte-exact copy at once, and running to completion leaves the count 0, the transfer-end flag set and
memory as the copy left it. The ranges lie below the bits that the default address mask clears and meet no
register window (20_memory R86, R82); the time of completion is `DMA_BURST_DELAY`, held as a linear function
with listed exceptions (log 21). -/
def Obligations.BurstRoundTripCopies : Prop :=
  ∀ q ∈ ([(.wrChcr0, 0), (.wrChcr1, 1), (.wrChcr2, 2), (.wrChcr3, 3)] : List (WriteOp × Chan)),
    ∀ (a d : Word) (s : State) (n : Chan) (src dst len delay : Nat),
    (q.1 .long a d).wellFormed s.cfg = true → s.cfg.separate = true → n = q.2 →
    field d 12 2 = 1 → field d 14 2 = 1 → field d 4 3 = 3 → field d 8 4 = 4 → bit d 0 = true → bit d 1 = false →
    bit (s.reg .dmaor) 0 = true → bit (s.reg .dmaor) 1 = false → bit (s.reg .dmaor) 2 = false →
    (s.chan n).active = false → s.cfg.dmaAddrMask = 0x1FFFFFFF →
    src = (s.reg (.sar n)).toNat → dst = (s.reg (.dar n)).toNat →
    len = (field (s.reg (.dmatcr n)) 0 24).toNat → 1 ≤ len →
    src % 4 = 0 → dst % 4 = 0 → src + 4 * len ≤ 0x20000000 → dst + 4 * len ≤ 0x20000000 →
    (∀ j < len, inWindow s.cfg (BitVec.ofNat 32 (src + 4 * j)) = false ∧
      inWindow s.cfg (BitVec.ofNat 32 (dst + 4 * j)) = false) →
    delay = (s.cfg.burstDelayOther.lookup len).getD (s.cfg.burstDelayMul * len + s.cfg.burstDelayAdd) →
    (src + 4 * len ≤ dst ∨ dst + 4 * len ≤ src) →
    ∃ t u, exec (q.1 .long a d) s = .next t ∧
      (∀ j < 4 * len, byteAt t.mem (BitVec.ofNat 32 (dst + j)) = byteAt s.mem (BitVec.ofNat 32 (src + j))) ∧
      exec (.fire (.dma n))
        { t with now := s.now + delay } = .next u ∧
      u.reg (.dmatcr n) = 0 ∧ bit (u.reg (.chcr n)) 1 = true ∧ u.mem = t.mem

/-- 41_dmac R208: `DMA_DATA` on a channel with no device transfer in flight answers `NotActive`; on one from
memory to the device it fills the first words of the buffer, moves the cached source address, counts down,
arms the immediate completion at 0 and answers. Each word holds the bytes of its unit, in the byte order. The
model's: the number of units is the smaller of the count and the buffer's length (log 26, DEDUCED), the four
words of a 32-byte unit stand side by side (log 19, DESIGN CHOICE; big-endian log 23, DEDUCED), and the whole
operation is refused where one access, of the four of a 32-byte unit too, lies in the register window (20_memory
R82, R84; log 14, DEDUCED). -/
def Obligations.PumpFillsBuffer : Prop :=
  ∀ (n : Chan) (s : State) (c : DmaChannel) (len : Nat), c = s.chan n →
    len = min c.devCount s.port.buffer.length →
    (c.active = false ∨ c.kind ≠ .device →
      exec (.dmaData n) s = .next { s with outputs := s.outputs ++ [.pumpResult n .notActive] }) ∧
    (c.active = true → c.kind = .device → c.devMode = 2 →
      (∀ k < len, UnitFree s.cfg (dmaAlign s.cfg.dmaAddrMask (unitAddr c.devSrc c.devSize c.devIncs k) c.devSize)
        c.devSize) →
      ∃ t, exec (.dmaData n) s = .next t ∧
        t = { s with dma := t.dma, port := { s.port with buffer := t.port.buffer },
                     outputs := s.outputs ++
                       [.pumpResult n (if c.devCount - len = 0 then .complete else .partialTransfer)] } ∧
        (∀ k < len, t.port.buffer[k]? = some (readUnit s.cfg.endian s.mem
          (dmaAlign s.cfg.dmaAddrMask (unitAddr c.devSrc c.devSize c.devIncs k) c.devSize) c.devSize)) ∧
        (c.devSize ∈ [1, 2, 4, 8, 32] → ∀ k < len, ∃ v, t.port.buffer[k]? = some v ∧
          (∀ i < c.devSize, v.extractLsb' (8 * hostLane s.cfg.endian c.devSize i) 8 =
            byteAt s.mem (dmaAlign s.cfg.dmaAddrMask (unitAddr c.devSrc c.devSize c.devIncs k) c.devSize
              + BitVec.ofNat 32 i)) ∧
          ∀ j : Nat, 8 * c.devSize ≤ j → v.getLsbD j = false) ∧
        (∀ k : Nat, len ≤ k → t.port.buffer[k]? = s.port.buffer[k]?) ∧
        ∀ m : Chan, t.chan m =
          if m = n then { c with
            devSrc := endAddr c.devSrc c.devSize c.devIncs len, devCount := c.devCount - len,
            deadline := if c.devCount - len = 0 then some s.now else c.deadline }
          else s.chan m) ∧
    (c.active = true → c.kind = .device → c.devMode = 2 →
      (∃ k < len, ¬UnitFree s.cfg (dmaAlign s.cfg.dmaAddrMask (unitAddr c.devSrc c.devSize c.devIncs k) c.devSize)
        c.devSize) →
      exec (.dmaData n) s = .refused .dmaIntoWindow)

/-- 41_dmac R208: `DMA_DATA` on a channel with a transfer from the device to memory writes the units of the
buffer in order, moves the cached destination address, counts down, arms the immediate completion at 0 and
answers. Writing a unit stores the bytes of its word, in the byte order, and no other byte. The model's: the
number of units is the smaller of the count and the buffer's length (log 26, DEDUCED), the four words of a
32-byte unit stand side by side (log 19, DESIGN CHOICE; big-endian log 23, DEDUCED), and the whole operation is
refused where one access, of the four of a 32-byte unit too, lies in the register window (20_memory R82, R84;
log 14, DEDUCED). -/
def Obligations.PumpDrainsBuffer : Prop :=
  (∀ (e : Endian) (m : Memory) (a : Word) (z : Nat) (v : BitVec 256) (x : Word), z ∈ [1, 2, 4, 8, 32] →
    byteAt (writeUnit e m a z v) x =
      if (x - a).toNat < z then v.extractLsb' (8 * hostLane e z (x - a).toNat) 8 else byteAt m x) ∧
  ∀ (n : Chan) (s : State) (c : DmaChannel) (len : Nat), c = s.chan n →
    len = min c.devCount s.port.buffer.length →
    c.active = true → c.kind = .device → c.devMode ≠ 2 →
    ((∀ k < len, UnitFree s.cfg (dmaAlign s.cfg.dmaAddrMask (unitAddr c.devDst c.devSize c.devIncd k) c.devSize)
        c.devSize) →
      ∃ t, exec (.dmaData n) s = .next t ∧
        t = { s with dma := t.dma, mem := t.mem,
                     outputs := s.outputs ++
                       [.pumpResult n (if c.devCount - len = 0 then .complete else .partialTransfer)] } ∧
        t.mem = (List.range len).foldl (fun m k => writeUnit s.cfg.endian m
          (dmaAlign s.cfg.dmaAddrMask (unitAddr c.devDst c.devSize c.devIncd k) c.devSize) c.devSize
          (s.port.buffer.getD k 0)) s.mem ∧
        ∀ m : Chan, t.chan m =
          if m = n then { c with
            devDst := endAddr c.devDst c.devSize c.devIncd len, devCount := c.devCount - len,
            deadline := if c.devCount - len = 0 then some s.now else c.deadline }
          else s.chan m) ∧
    ((∃ k < len, ¬UnitFree s.cfg (dmaAlign s.cfg.dmaAddrMask (unitAddr c.devDst c.devSize c.devIncd k) c.devSize)
        c.devSize) →
      exec (.dmaData n) s = .refused .dmaIntoWindow)

/-- 41_dmac R214: `DMA_DDT` that is not raw. On an active channel it does nothing. Else it reads back and
writes through the address registers, source first; a length that does not match, an illegal increment or a
reserved size ends it there; else it copies by the copy loop from the record's addresses, arms nothing,
requests nothing and writes no other register. The model's: the two lengths are compared as products of natural
numbers (log 29, DESIGN CHOICE), and the whole operation is refused, registers and record with it, where an
access lies in the register window (log 14, DEDUCED). -/
def Obligations.DirectTransferCopies : Prop :=
  ∀ (n : Chan) (s s1 : State) (p : DdtRecord) (src dst : Word) (z : Nat), p = s.port.record →
    s.cfg.separate = true →
    ((s.chan n).active = true → exec (.dmaDdt n) s = .next s) ∧
    ((s.chan n).active = false → p.raw = false →
      src = (if p.rdSrc then s.reg (.sar n) else p.source) →
      dst = (if p.rdDst then s.reg (.dar n) else p.destination) →
      s1 = { (if p.wrDst then (if p.wrSrc then s.setReg (.sar n) src else s).setReg (.dar n) dst
              else if p.wrSrc then s.setReg (.sar n) src else s) with
             port := { s.port with record := { p with source := src, destination := dst } } } →
      z = [8, 1, 2, 4, 32, 0, 0, 0].getD (field (s.reg (.chcr n)) 4 3).toNat 0 →
      (z ≠ 0 → p.size ≠ 0 → (s.reg (.dmatcr n)).toNat * z ≠ p.length * p.size →
        exec (.dmaDdt n) s = .next s1) ∧
      ((z = 0 ∨ p.size = 0 ∨ (s.reg (.dmatcr n)).toNat * z = p.length * p.size) →
        (field (s.reg (.chcr n)) 12 2 = 3 ∨ field (s.reg (.chcr n)) 14 2 = 3 →
          exec (.dmaDdt n) s = .next { s1 with outputs := s.outputs ++ [.diag (.dmaBadIncrement n)] }) ∧
        (field (s.reg (.chcr n)) 12 2 ≠ 3 → field (s.reg (.chcr n)) 14 2 ≠ 3 → z = 0 →
          exec (.dmaDdt n) s = .next { s1 with outputs := s.outputs ++ [.diag (.dmaBadSize n)] }) ∧
        ∀ (incs incd : Inc) (cnt : Nat) (a b : Word),
          incs = Inc.ofCode (field (s.reg (.chcr n)) 12 2) → incs ≠ .illegal →
          incd = Inc.ofCode (field (s.reg (.chcr n)) 14 2) → incd ≠ .illegal → z ≠ 0 →
          cnt = (if (field (s.reg (.dmatcr n)) 0 24).toNat = 0 then 0x1000000
            else (field (s.reg (.dmatcr n)) 0 24).toNat) →
          a = dmaAlign s.cfg.dmaAddrMask src z → b = dmaAlign s.cfg.dmaAddrMask dst z →
          (RunFree s.cfg a z incs cnt ∧ RunFree s.cfg b z incd cnt →
            ∃ r, r = copyLoop s.cfg.endian z incs incd cnt s.mem a b ∧
              exec (.dmaDdt n) s = .next { s1 with
                mem := r.mem,
                port := { s.port with record := { p with source := r.src, destination := r.dst } } }) ∧
          (¬(RunFree s.cfg a z incs cnt ∧ RunFree s.cfg b z incd cnt) →
            exec (.dmaDdt n) s = .refused .dmaIntoWindow)))

/-- 41_dmac R214, 20_memory R84, R91: a raw `DMA_DDT` on an idle channel moves 4-byte words, or 32-byte units
as 8-byte pieces, between the host buffer and memory, in order, from the record's address as given, and moves
that address on; it touches no register. Any other size does nothing. A word of the buffer holds the bytes that
stand, or come to stand, in memory, in the byte order. The model's: the big-endian order of a word's bytes, which
R91 does not write out (log 23, DEDUCED); a 4-byte word stands in the low bits of 64, zeros above, and what is
written is its low bits (log 19, DESIGN CHOICE); the whole operation is refused at a misaligned address (93 U7;
log 15, DEDUCED) and where one access lies in the register window (20_memory R82; log 14, DEDUCED), neither where
no word moves; a buffer that is too short grows as it is filled (log 24, DESIGN CHOICE); a word that it does not
hold is free (log 16, DESIGN CHOICE). -/
def Obligations.RawTransferMoves : Prop :=
  (∀ (e : Endian) (m : Memory) (a : Word) (z : Nat) (v : BitVec 64) (x : Word), z ∈ [4, 8] →
    byteAt (memWrite e m a z v) x =
      if (x - a).toNat < z then v.extractLsb' (8 * hostLane e z (x - a).toNat) 8 else byteAt m x) ∧
  ∀ (n : Chan) (s : State) (p : DdtRecord) (z cnt : Nat), p = s.port.record →
    (s.chan n).active = false → p.raw = true →
    (p.size ≠ 4 → p.size ≠ 32 → exec (.dmaDdt n) s = .next s) ∧
    ((p.size = 4 ∧ z = 4 ∧ cnt = p.length) ∨ (p.size = 32 ∧ z = 8 ∧ cnt = 4 * p.length) →
      (p.direction = .toHost → (cnt = 0 ∨ p.source.toNat % z = 0) → RunFree s.cfg p.source z .increment cnt →
        ∃ t, exec (.dmaDdt n) s = .next t ∧
          t = { s with port := { s.port with record := { p with
            source := p.source + BitVec.ofNat 32 (cnt * z), buffer := t.port.record.buffer } } } ∧
          (∀ k < cnt, ∃ v, t.port.record.buffer[k]? = some v ∧
            (∀ i < z, v.extractLsb' (8 * hostLane s.cfg.endian z i) 8 =
              byteAt s.mem (p.source + BitVec.ofNat 32 (k * z + i))) ∧
            ∀ j : Nat, 8 * z ≤ j → v.getLsbD j = false) ∧
          (∀ k : Nat, cnt ≤ k → t.port.record.buffer[k]? = p.buffer[k]?)) ∧
      (p.direction = .toMemory → (cnt = 0 ∨ p.destination.toNat % z = 0) →
        RunFree s.cfg p.destination z .increment cnt →
        ∃ (t : State) (free : Nat → BitVec 64), exec (.dmaDdt n) s = .next t ∧
          t = { s with
            mem := (List.range cnt).foldl (fun m k => memWrite s.cfg.endian m
              (p.destination + BitVec.ofNat 32 (k * z)) z (p.buffer.getD k (free k))) s.mem,
            draws := s.draws + (cnt - p.buffer.length),
            port := { s.port with record := { p with
              destination := p.destination + BitVec.ofNat 32 (cnt * z) } } }) ∧
      (cnt ≠ 0 → ∀ a : Word, a = (if p.direction = .toHost then p.source else p.destination) →
        (a.toNat % z ≠ 0 → exec (.dmaDdt n) s = .refused .rawMisaligned) ∧
        (a.toNat % z = 0 → ¬RunFree s.cfg a z .increment cnt → exec (.dmaDdt n) s = .refused .dmaIntoWindow)))

/-- 41_dmac R218: the completion of channel `n` idles it, zeroes the count register, sets the transfer-end
flag and, under the interrupt enable read now, requests source 44 + n. -/
def Obligations.DmaCompletionReports : Prop :=
  ∀ (n : Chan) (s u : State) (deadline : Time),
    s.cfg.separate = true → (s.chan n).deadline = some deadline → deadline ≤ s.now →
    u = ((s.setChan n { s.chan n with active := false, deadline := none }).setReg (.dmatcr n) 0).setReg
      (.chcr n) (s.reg (.chcr n) ||| 2) →
    (srcDmte n).val = 44 + n.val ∧
    ∃ t, exec (.fire (.dma n)) s = .next t ∧
      (bit (s.reg (.chcr n)) 2 = true → exec (.request (srcDmte n)) u = .next t) ∧
      (bit (s.reg (.chcr n)) 2 = false → t = u)

/-! ## Time and the timers (30_encoding R119, 42_timers) -/

/-- 30_encoding R119: `ADVANCE dt` moves time on and does nothing else, exactly where `dt` is at least 1 and
no armed deadline comes before `now + dt`; `FIRE t` of a timer that is not due is not enabled. -/
def Obligations.TimeAdvancesToDeadlines : Prop :=
  (∀ (dt : Word) (s : State), 1 ≤ dt.toNat →
    (∀ (t : TimerId) (d : Time), deadlineOf t s = some d → s.now + dt.toNat ≤ d) →
    exec (.advance dt) s = .next { s with now := s.now + dt.toNat }) ∧
  (∀ (dt : Word) (s : State),
    (dt.toNat = 0 ∨ ∃ (t : TimerId) (d : Time), deadlineOf t s = some d ∧ d < s.now + dt.toNat) →
    exec (.advance dt) s = .refused .notEnabled) ∧
  (∀ (t : TimerId) (s : State), (∀ d : Time, deadlineOf t s = some d → s.now < d) →
    exec (.fire t) s = .refused .notEnabled)

/-- 42_timers R244, R245: the expiry of TMU channel `n` reloads the count, arms the channel from it, sets
the underflow flag and, under its enable, requests source 36 + n. -/
def Obligations.TmuExpiryReloads : Prop :=
  ∀ (n : TmuChan) (s u : State) (deadline : Time),
    s.cfg.separate = true → (s.timer n).deadline = some deadline → deadline ≤ s.now →
    u = ((s.setReg (.tcnt n) (s.reg (.tcor n))).setReg (.tcr n) (s.reg (.tcr n) ||| 0x100)).setTimer n
      (armedTimer s n (s.reg (.tcor n)) (s.reg (.tcr n))) →
    (srcTuni n).val = 36 + n.val ∧
    ∃ t, exec (.fire (.tmu n)) s = .next t ∧
      (bit (s.reg (.tcr n)) 5 = true → exec (.request (srcTuni n)) u = .next t) ∧
      (bit (s.reg (.tcr n)) 5 = false → t = u)

/-- 42_timers R254, R256: the expiry of the refresh timer zeroes the count, arms the timer again, sets the
compare flag and, in counter mode, counts modulo 1024 and sets the overflow flag at the threshold. It
requests no source. -/
def Obligations.RefreshExpiryCounts : Prop :=
  ∀ (s : State) (deadline v : Nat) (hit counting : Bool),
    s.cfg.separate = true → s.refresh.deadline = some deadline → deadline ≤ s.now →
    counting = (bit (s.reg .mcr) 2 && !bit (s.reg .mcr) 1) →
    v = ((s.reg .rfcr).toNat + 1) % 1024 →
    hit = (counting && ((bit (s.reg .rtcsr) 0 && decide (v = 512)) ||
      (!bit (s.reg .rtcsr) 0 && decide (v = 0)))) →
    ∃ t, exec (.fire .ref) s = .next t ∧
      t = { s with regs := t.regs, refresh := armedRefresh s (s.reg .rtcor) 0 (s.reg .rtcsr) } ∧
      ∀ i : Nat, t.cell i =
        if i = s.cfg.index .rtcnt then 0
        else if i = s.cfg.index .rtcsr then s.reg .rtcsr ||| (if hit then 0x84 else 0x80)
        else if i = s.cfg.index .rfcr then
          (if hit then 0 else if counting then BitVec.ofNat 32 v else s.reg .rfcr)
        else s.cell i

/-- 42_timers R266: the 128 Hz tick moves the deadline on by one tick, advances the 7-bit counter and, on
the tick that brings it to 64, sets the carry flag and increments the calendar by a second. It requests no
source. -/
def Obligations.RtcTickCarries : Prop :=
  ∀ (s : State) (deadline : Time) (carry : Bool), s.cfg.separate = true →
    s.rtcDeadline = some deadline → deadline ≤ s.now →
    carry = decide ((s.reg .r64cnt + 1) &&& 0x7F = 64) →
    ∃ t, exec (.fire .rtc) s = .next t ∧
      t = { s with regs := t.regs, rtcDeadline := some (deadline + s.cfg.cycPerRtcTick) } ∧
      t.reg .r64cnt = (s.reg .r64cnt + 1) &&& 0x7F ∧
      t.reg .rcr1 = (if carry then s.reg .rcr1 ||| 0x80 else s.reg .rcr1) ∧
      t.calendar = (if carry then calSecond s.cfg s.calendar else s.calendar) ∧
      ∀ i : Nat, i ∉ (Reg.r64cnt :: .rcr1 :: calendarRegs).map s.cfg.index → t.cell i = s.cell i

/-- 42_timers R268, 93 U12: on a valid date the calendar increment is the increment of a decimal clock with
the Gregorian calendar, entered at the seconds or at the minutes, and it gives a valid date. The premise on
the month lengths holds of the spec's default table. -/
def Obligations.CalendarRefinesDecimalClock : Prop :=
  ∀ (cfg : Config) (c : Calendar), cfg.monthLen.length = 12 →
    (∀ l ∈ cfg.monthLen, 1 ≤ l ∧ l ≤ 31) → c.Valid cfg →
    (calSecond cfg c).Valid cfg ∧ (calSecond cfg c).date = c.date.nextSecond cfg ∧
    (calMinute cfg c).Valid cfg ∧ (calMinute cfg c).date = c.date.nextMinute cfg

/-- 42_timers R246, R243: a write of `TSTR` arms each channel whose start bit rises from its stored count,
stores the live count of each channel whose start bit falls and drops its deadline, and leaves the others. -/
def Obligations.StartWriteArmsAndStops : Prop :=
  ∀ (w : Width) (a d : Word) (s s1 : State), (Instr.wrTstr w a d).wellFormed s.cfg = true →
    s.cfg.separate = true → s1 = s.stored .tstr w a d →
    ∃ t, exec (.wrTstr w a d) s = .next t ∧ t = { s1 with tmu := t.tmu, regs := t.regs } ∧
      (∀ n : TmuChan, t.timer n =
        if bit (s.reg .tstr) n.val = false ∧ bit (s1.reg .tstr) n.val = true then
          armedTimer s n (s.reg (.tcnt n)) (s.reg (.tcr n))
        else if bit (s.reg .tstr) n.val = true ∧ bit (s1.reg .tstr) n.val = false then
          { s.timer n with deadline := none }
        else s.timer n) ∧
      (∀ n : TmuChan, t.reg (.tcnt n) =
        if bit (s.reg .tstr) n.val = true ∧ bit (s1.reg .tstr) n.val = false then tmuLive n s
        else s.reg (.tcnt n)) ∧
      ∀ i : Nat, i ∉ [s.cfg.index (.tcnt 0), s.cfg.index (.tcnt 1), s.cfg.index (.tcnt 2)] →
        t.cell i = s1.cell i

/-- 42_timers R247: a write of `TCNTn` stores, and arms a started channel from the merged count. -/
def Obligations.CountWriteRearms : Prop :=
  ∀ p ∈ countWrites, ∀ (w : Width) (a d : Word) (s s1 : State), (p.1 w a d).wellFormed s.cfg = true →
    s.cfg.separate = true → s1 = s.stored (.tcnt p.2) w a d →
    exec (p.1 w a d) s = .next
      (if bit (s.reg .tstr) p.2.val then
        s1.setTimer p.2 (armedTimer s p.2 (s1.reg (.tcnt p.2)) (s.reg (.tcr p.2)))
      else s1)

/-- 42_timers R241, R248: a write of `TCRn` on a started channel snapshots the live count, taken with the
old prescaler, and arms with the new one; then `UNF` = 0 or `UNIE` = 0 withdraws source 36 + n. -/
def Obligations.ControlWriteSnapshots : Prop :=
  ∀ p ∈ controlWrites, ∀ (w : Width) (a d : Word) (s s1 u : State) (n : TmuChan) (cnt : Word),
    (p.1 w a d).wellFormed s.cfg = true → s.cfg.separate = true → n = p.2 → s1 = s.stored (.tcr n) w a d →
    cnt = (if (s.timer n).deadline.isSome then tmuLive n s else s.reg (.tcnt n)) →
    u = (if bit (s.reg .tstr) n.val then
          (if (s.timer n).deadline.isSome then s1.setReg (.tcnt n) cnt else s1).setTimer n
            (armedTimer s n cnt (s1.reg (.tcr n)))
        else s1) →
    ∃ t, exec (p.1 w a d) s = .next t ∧
      (bit (s1.reg (.tcr n)) 8 = false ∨ bit (s1.reg (.tcr n)) 5 = false →
        exec (.unrequest (srcTuni n)) u = .next t) ∧
      (bit (s1.reg (.tcr n)) 8 = true → bit (s1.reg (.tcr n)) 5 = true → t = u)

/-- 42_timers R241, R258: a write of `RTCSR` keeps 8 bits, stores the live count, taken with the old divisor,
where the timer was active, and arms with the new divisor or stops. -/
def Obligations.RefreshControlSnapshots : Prop :=
  ∀ (w : Width) (a d : Word) (s : State) (v cnt : Word), (Instr.wrRtcsr w a d).wellFormed s.cfg = true →
    s.cfg.separate = true → v = (s.stored .rtcsr w a d).reg .rtcsr &&& 0xFF →
    cnt = (if field (s.reg .rtcsr) 3 3 ≠ 0 then
        BitVec.ofNat 32 ((s.refresh.base + (s.now - s.refresh.armedAt) /
          (refDiv (field (s.reg .rtcsr) 3 3) * s.cfg.cycPerBus)) % 256)
      else s.reg .rtcnt) →
    ∃ t, exec (.wrRtcsr w a d) s = .next t ∧
      t = { s with regs := t.regs,
                   refresh := if field v 3 3 ≠ 0 then armedRefresh s (s.reg .rtcor) cnt v
                     else { s.refresh with deadline := none } } ∧
      ∀ i : Nat, t.cell i =
        if i = s.cfg.index .rtcsr then v else if i = s.cfg.index .rtcnt then cnt else s.cell i

/-- 42_timers R259, R260, R261: a write of `RTCNT` keeps 8 bits and arms an active timer from them; a write
of `RTCOR` keeps 8 bits and, active, first stores the live count; a write of `RFCR` keeps 10 bits. -/
def Obligations.RefreshCountWrites : Prop :=
  (∀ (w : Width) (a d : Word) (s : State) (v : Word), (Instr.wrRtcnt w a d).wellFormed s.cfg = true →
    s.cfg.separate = true → v = (s.stored .rtcnt w a d).reg .rtcnt &&& 0xFF →
    exec (.wrRtcnt w a d) s = .next { s.setReg .rtcnt v with
      refresh := if field (s.reg .rtcsr) 3 3 ≠ 0 then armedRefresh s (s.reg .rtcor) v (s.reg .rtcsr)
        else s.refresh }) ∧
  (∀ (w : Width) (a d : Word) (s : State) (v cnt : Word), (Instr.wrRtcor w a d).wellFormed s.cfg = true →
    s.cfg.separate = true → v = (s.stored .rtcor w a d).reg .rtcor &&& 0xFF →
    cnt = BitVec.ofNat 32 ((s.refresh.base + (s.now - s.refresh.armedAt) /
      (refDiv (field (s.reg .rtcsr) 3 3) * s.cfg.cycPerBus)) % 256) →
    exec (.wrRtcor w a d) s = .next
      (if field (s.reg .rtcsr) 3 3 ≠ 0 then
        { (s.setReg .rtcor v).setReg .rtcnt cnt with refresh := armedRefresh s v cnt (s.reg .rtcsr) }
      else s.setReg .rtcor v)) ∧
  (∀ (w : Width) (a d : Word) (s : State), (Instr.wrRfcr w a d).wellFormed s.cfg = true →
    exec (.wrRfcr w a d) s = .next (s.setReg .rfcr ((s.stored .rfcr w a d).reg .rfcr &&& 0x3FF)))

/-- 42_timers R265: a write of `RCR2` keeps 8 bits, performs the two write-1 actions, which read back 0, and
starts or stops the clock; while `START` stays 1 the deadline does not move. -/
def Obligations.ClockControlActs : Prop :=
  ∀ (w : Width) (a d : Word) (s : State) (v : Word) (adj : Bool), (Instr.wrRcr2 w a d).wellFormed s.cfg = true →
    s.cfg.separate = true → v = (s.stored .rcr2 w a d).reg .rcr2 &&& 0xFF → adj = bit v 2 →
    ∃ t, exec (.wrRcr2 w a d) s = .next t ∧ t = { s with regs := t.regs, rtcDeadline := t.rtcDeadline } ∧
      t.rtcDeadline = (if bit v 3 = false then none
        else if bit (s.reg .rcr2) 3 then s.rtcDeadline else some (s.now + s.cfg.cycPerRtcTick)) ∧
      t.reg .rcr2 = v &&& 0xF9 ∧
      t.reg .r64cnt = (if bit v 1 || adj then 0 else s.reg .r64cnt) ∧
      t.calendar = (if adj then
          { (if 30 ≤ 10 * (field (s.reg .rseccnt) 4 4).toNat + (field (s.reg .rseccnt) 0 4).toNat then
              calMinute s.cfg s.calendar else s.calendar) with sec := 0 }
        else s.calendar) ∧
      ∀ i : Nat, i ∉ (Reg.rcr2 :: .r64cnt :: calendarRegs).map s.cfg.index → t.cell i = s.cell i

/-- 70_reset_and_hazards R389: no timer is due right after it has fired, and from every state that meets the
invariant, under positive tick parameters, firing finitely many timers, no more than nine and none twice, at
the same time makes `ADVANCE 1` enabled. -/
def Obligations.TimeCanAlwaysPass : Prop :=
  ∀ s : State, Inv s → s.cfg.positive →
    (∀ (t : TimerId) (u : State), exec (.fire t) s = .next u → timerDue t u = false) ∧
    ∃ (ts : List TimerId) (u v : State), ts.Nodup ∧ ts.length ≤ 9 ∧ fireAll ts s = .next u ∧
      u.now = s.now ∧ exec (.advance 1) u = .next v ∧ v.now = s.now + 1

/-! ## The register file (43_regfile, 20_memory R85) -/

/-- 20_memory R85: the lanes that each width allows, where they lie in the cell under each byte order, and
what a write and a read do to each bit. -/
def Obligations.LanesFollowWidthAndOrder : Prop :=
  ∀ (e : Endian) (w : Width) (a old data v : Word) (k n sh : Nat), k = a.toNat % 4 →
    n = (match w with | .byte => 8 | .word => 16 | .long => 32) →
    sh = (match e, w with
      | .little, .byte => 8 * k | .little, .word => 8 * k | .little, .long => 0
      | .big, .byte => 8 * (3 - k) | .big, .word => 8 * (2 - k) | .big, .long => 0) →
    (laneOk w a = true ↔ match w with | .byte => True | .word => k = 0 ∨ k = 2 | .long => k = 0) ∧
    (laneOk w a = true →
      (∀ j < 32, bit (laneMerge e w a old data) j =
        if sh ≤ j ∧ j < sh + n then bit data (j - sh) else bit old j) ∧
      (∀ j : Nat, bit (laneRead e w a v) j = (decide (j < n) && bit v (sh + j))))

/-- 43_regfile R292, R293, R294, R297, R298, R299: a plain write stores the masked data and does nothing
else; a plain read answers the lane of the cell and changes nothing; an unnamed address is a plain cell, its
write logged; the hard-wired registers ignore writes and read `PVR_VALUE`, 0 and 0. -/
def Obligations.PlainAndHardWiredRegisters : Prop :=
  (∀ p ∈ plainWrites, ∀ (w : Width) (a d : Word) (s : State), (p.1 w a d).wellFormed s.cfg = true →
    exec (p.1 w a d) s = .next (s.setReg p.2 (laneMerge s.cfg.endian w a (s.reg p.2) d))) ∧
  (∀ p ∈ plainReads, ∀ (w : Width) (a : Word) (s : State), (p.1 w a).wellFormed s.cfg = true →
    exec (p.1 w a) s = .next
      { s with outputs := s.outputs ++ [.readData (laneRead s.cfg.endian w a (s.reg p.2))] }) ∧
  (∀ (w : Width) (a d : Word) (s : State), (Instr.wrDefault w a d).wellFormed s.cfg = true →
    exec (.wrDefault w a d) s = .next
      { s.setCell (regIndex s.cfg a) (laneMerge s.cfg.endian w a (s.cell (regIndex s.cfg a)) d) with
        outputs := s.outputs ++ [.diag (.unknownRegisterWrite a)] }) ∧
  (∀ (w : Width) (a : Word) (s : State), (Instr.rdDefault w a).wellFormed s.cfg = true →
    exec (.rdDefault w a) s = .next
      { s with outputs := s.outputs ++ [.readData (laneRead s.cfg.endian w a (s.cell (regIndex s.cfg a)))] }) ∧
  (∀ op ∈ ignoredWrites, ∀ (w : Width) (a d : Word) (s : State), (op w a d).wellFormed s.cfg = true →
    exec (op w a d) s = .next s) ∧
  (∀ op ∈ zeroReads, ∀ (w : Width) (a : Word) (s : State), (op w a).wellFormed s.cfg = true →
    exec (op w a) s = .next { s with outputs := s.outputs ++ [.readData 0] }) ∧
  (∀ (w : Width) (a : Word) (s : State), (Instr.rdPvr w a).wellFormed s.cfg = true →
    exec (.rdPvr w a) s = .next
      { s with outputs := s.outputs ++ [.readData (laneRead s.cfg.endian w a s.cfg.pvrValue)] })

/-- 42_timers R243, R249, R254, R262; 43_regfile R306, R307: the reads that answer something else than the
stored cell: the live counts, and the pins of the input directions while the port is enabled. -/
def Obligations.LiveReadsAnswer : Prop :=
  (∀ p ∈ countReads, ∀ (w : Width) (a : Word) (s : State), (p.1 w a).wellFormed s.cfg = true →
    exec (p.1 w a) s = .next { s with outputs := s.outputs ++ [.readData (laneRead s.cfg.endian w a
      (match (s.timer p.2).deadline with
        | none => s.reg (.tcnt p.2)
        | some _ => BitVec.ofNat 32 ((s.reg (.tcnt p.2)).toNat - (s.now - (s.timer p.2).armedAt) /
            (s.cfg.tmuDiv.getD (field (s.reg (.tcr p.2)) 0 3).toNat 0 * s.cfg.cycPerPclk))))] }) ∧
  (∀ (w : Width) (a : Word) (s : State), (Instr.rdRtcnt w a).wellFormed s.cfg = true →
    exec (.rdRtcnt w a) s = .next { s with outputs := s.outputs ++ [.readData (laneRead s.cfg.endian w a
      (if field (s.reg .rtcsr) 3 3 ≠ 0 then
        BitVec.ofNat 32 ((s.refresh.base + (s.now - s.refresh.armedAt) /
          (refDiv (field (s.reg .rtcsr) 3 3) * s.cfg.cycPerBus)) % 256)
      else s.reg .rtcnt))] }) ∧
  (∀ (w : Width) (a : Word) (s : State), (Instr.rdPdtra w a).wellFormed s.cfg = true →
    ∃ v : Word, exec (.rdPdtra w a) s = .next
        { s with outputs := s.outputs ++ [.readData (laneRead s.cfg.endian w a v)] } ∧
      ∀ j : Nat, bit v j = if bit (s.reg .bcr2) 0 then
          decide (j < 16) && (if s.gpio.dir16.getLsbD j then bit (s.reg .pdtra) j else s.pins16.getLsbD j)
        else bit (s.reg .pdtra) j) ∧
  (∀ (w : Width) (a : Word) (s : State), (Instr.rdPdtrb w a).wellFormed s.cfg = true →
    ∃ v : Word, exec (.rdPdtrb w a) s = .next
        { s with outputs := s.outputs ++ [.readData (laneRead s.cfg.endian w a v)] } ∧
      ∀ j : Nat, bit v j = if bit (s.reg .bcr2) 0 then
          decide (j < 4) && (if s.gpio.dir4.getLsbD j then bit (s.reg .pdtrb) j else s.pins4.getLsbD j)
        else bit (s.reg .pdtrb) j)

/-- 43_regfile R301 to R305: a write of a GPIO control register recomputes the directions and pull-ups of
its pins, and with the port enabled every write of a GPIO register emits the data on the output pins and the
control word. -/
def Obligations.GpioWritesDrivePins : Prop :=
  (∀ (w : Width) (a d : Word) (s s1 : State), (Instr.wrPctra w a d).wellFormed s.cfg = true →
    s.cfg.separate = true → s1 = s.stored .pctra w a d → ∃ t, exec (.wrPctra w a d) s = .next t ∧
      t = { s1 with gpio := { s.gpio with dir16 := t.gpio.dir16, pup16 := t.gpio.pup16 },
                    outputs := t.outputs } ∧
      (∀ k : Fin 16, t.gpio.dir16.getLsbD k = bit (s1.reg .pctra) (2 * k) ∧
        t.gpio.pup16.getLsbD k = (!bit (s1.reg .pctra) (2 * k + 1) && !bit (s1.reg .pctra) (2 * k))) ∧
      t.outputs = (if bit (s.reg .bcr2) 0 then
        s.outputs ++ [.gpioOut16 ((s.reg .pdtra).extractLsb' 0 16 &&& t.gpio.dir16) (s1.reg .pctra)]
        else s.outputs)) ∧
  (∀ (w : Width) (a d : Word) (s s1 : State), (Instr.wrPctrb w a d).wellFormed s.cfg = true →
    s.cfg.separate = true → s1 = s.stored .pctrb w a d → ∃ t, exec (.wrPctrb w a d) s = .next t ∧
      t = { s1 with gpio := { s.gpio with dir4 := t.gpio.dir4, pup4 := t.gpio.pup4 },
                    outputs := t.outputs } ∧
      (∀ k : Fin 4, t.gpio.dir4.getLsbD k = bit (s1.reg .pctrb) (2 * k) ∧
        t.gpio.pup4.getLsbD k = (!bit (s1.reg .pctrb) (2 * k + 1) && !bit (s1.reg .pctrb) (2 * k))) ∧
      t.outputs = (if bit (s.reg .bcr2) 0 then
        s.outputs ++ [.gpioOut4 ((s.reg .pdtrb).extractLsb' 0 4 &&& t.gpio.dir4) (s1.reg .pctrb)]
        else s.outputs)) ∧
  (∀ (w : Width) (a d : Word) (s s1 : State), (Instr.wrPdtra w a d).wellFormed s.cfg = true →
    s.cfg.separate = true → s1 = s.stored .pdtra w a d → exec (.wrPdtra w a d) s = .next { s1 with
      outputs := if bit (s.reg .bcr2) 0 then
        s.outputs ++ [.gpioOut16 ((s1.reg .pdtra).extractLsb' 0 16 &&& s.gpio.dir16) (s.reg .pctra)]
        else s.outputs }) ∧
  (∀ (w : Width) (a d : Word) (s s1 : State), (Instr.wrPdtrb w a d).wellFormed s.cfg = true →
    s.cfg.separate = true → s1 = s.stored .pdtrb w a d → exec (.wrPdtrb w a d) s = .next { s1 with
      outputs := if bit (s.reg .bcr2) 0 then
        s.outputs ++ [.gpioOut4 ((s1.reg .pdtrb).extractLsb' 0 4 &&& s.gpio.dir4) (s.reg .pctrb)]
        else s.outputs })

/-- 43_regfile R290, 20_memory R85, R89: every bus operation outside the window or on a lane that its width
does not allow is refused; every read that has a meaning changes nothing but its answer. -/
def Obligations.BusAccessRefusedOrReadOnly : Prop :=
  ∀ (i : Instr) (b : BusAccess) (s : State), i.busAccess = some b →
    (inWindow s.cfg b.addr = false → exec i s = .refused .outsideWindow) ∧
    (inWindow s.cfg b.addr = true → laneOk b.width b.addr = false → exec i s = .refused .misalignedLane) ∧
    (b.write = false → inWindow s.cfg b.addr = true → laneOk b.width b.addr = true →
      ∃ v : Word, exec i s = .next { s with outputs := s.outputs ++ [.readData v] })

/-! ## Frames and rules of the whole machine -/

/-- Every well-formed operation completes, but for the ones that time or the register window may hold back:
`ADVANCE`, `FIRE`, `DMA_DATA`, `DMA_DDT` (stated apart), and the writes that may start a burst, which
complete where the bursts they may start keep off the window (00_scope R17, 60_exceptions R330). -/
def Obligations.OperationsComplete : Prop :=
  ∀ (i : Instr) (s : State), i.wellFormed s.cfg = true → s.cfg.separate = true →
    (∀ dt, i ≠ .advance dt) → (∀ t, i ≠ .fire t) → (∀ n, i ≠ .dmaData n) → (∀ n, i ≠ .dmaDdt n) →
    (∀ (b : BusAccess) (r : Reg), i.busAccess = some b → i.writesReg = some r →
      ∀ n ∈ i.checks, WindowFree (s.stored r b.width b.addr b.data) n) →
    ∃ t, exec i s = .next t

/-- 20_memory R80: every operation but the writes that run a start check, `DMA_DATA` and `DMA_DDT` leaves
every byte of system memory. -/
def Obligations.MemoryFrameOfOthers : Prop :=
  ∀ (i : Instr) (s t : State), exec i s = .next t → i.checks = [] →
    (∀ n, i ≠ .dmaData n) → (∀ n, i ≠ .dmaDdt n) → ∀ x : Word, byteAt t.mem x = byteAt s.mem x

/-- 41_dmac R192, R196, R200: a write that runs start checks stores only to the units of the destination
runs of the bursts of the checked channels that are enabled and idle with a burst request select, at the
addresses that the copy computes from the channel registers after the store. -/
def Obligations.MemoryFrameOfBursts : Prop :=
  ∀ (i : Instr) (b : BusAccess) (r : Reg) (s s1 t : State), exec i s = .next t →
    s.cfg.separate = true → i.busAccess = some b → i.writesReg = some r → i.checks ≠ [] →
    s1 = s.stored r b.width b.addr b.data →
    ∀ x : Word, (∀ n ∈ i.checks, Enabled s1 n → (s1.chan n).active = false →
        requestSelect s1 n ∈ [4, 5, 6] → ¬BurstStores s1 n x) →
      byteAt t.mem x = byteAt s.mem x

/-- 41_dmac R208, R214: `DMA_DATA` stores only to the units of its run on a channel in flight from the
device to memory; `DMA_DDT` only to the units of its destination run on an idle channel: the copy's, or
those of a raw transfer to memory. -/
def Obligations.MemoryFrameOfHostTransfers : Prop :=
  (∀ (n : Chan) (s t : State) (c : DmaChannel), exec (.dmaData n) s = .next t → c = s.chan n →
    ∀ x : Word,
      (c.active = true → c.kind = .device → c.devMode ≠ 2 →
        ∀ k < min c.devCount s.port.buffer.length,
          ¬inSpan (pumpAddr s.cfg c.devDst c.devSize c.devIncd k) c.devSize x) →
      byteAt t.mem x = byteAt s.mem x) ∧
  (∀ (n : Chan) (s t : State) (p : DdtRecord), exec (.dmaDdt n) s = .next t → s.cfg.separate = true →
    p = s.port.record →
    ∀ x : Word,
      ((s.chan n).active = false → p.raw = false → ∀ q, dmaSetup s n = .ok q → ∀ k < q.count,
        ¬inSpan (unitAddr (dmaAlign s.cfg.dmaAddrMask
          (if p.rdDst then s.reg (.dar n) else p.destination) q.size) q.size q.incd k) q.size x) →
      ((s.chan n).active = false → p.raw = true → p.direction = .toMemory →
        (p.size = 4 → ¬∃ k < p.length, inSpan (unitAddr p.destination 4 .increment k) 4 x) ∧
        (p.size = 32 → ¬∃ k < 4 * p.length, inSpan (unitAddr p.destination 8 .increment k) 8 x)) →
      byteAt t.mem x = byteAt s.mem x)

/-- 20_memory R90, 43_regfile R295: an operation other than `RESET` writes only the cells that its rule
names: its own register, the registers that its handler or the timer's expiry writes, `INTEVT` for a
dispatch, `DMAOR` for an NMI, the address registers for a direct transfer. -/
def Obligations.RegisterFrame : Prop :=
  ∀ (i : Instr) (s t : State), exec i s = .next t → i ≠ .reset →
    ∀ c : Nat, c ∉ cellsWritten s.cfg i → t.cell c = s.cell c

/-- 10_state R21 to R28, R24, 30_encoding R110: no operation writes the general registers, the vector base,
the floating-point file, the pins, the parameters or what is still to be issued; only `RAISE` and
`BOUNDARY` write the shadows and the pc; only they and `RESET` write the status register, of which they only
set bits (`RESET` with the spec's values), and none but `RESET` writes another bit than `MD`, `RB`, `BL`; time
moves by `ADVANCE` alone, the host's operands by `DMA_DATA` and `DMA_DDT`; what was output stays. -/
def Obligations.ContextFrame : Prop :=
  ∀ (i : Instr) (s t : State), exec i s = .next t →
    (t.cpu.bank0 = s.cpu.bank0 ∧ t.cpu.bank1 = s.cpu.bank1 ∧ t.cpu.r8to14 = s.cpu.r8to14 ∧
      t.cpu.r15 = s.cpu.r15 ∧ t.cpu.vbr = s.cpu.vbr ∧ t.cpu.fp0 = s.cpu.fp0 ∧ t.cpu.fp1 = s.cpu.fp1) ∧
    ((∀ x, i ≠ .raise x) → (∀ d, i ≠ .boundary d) → i ≠ .reset → t.cpu = s.cpu) ∧
    (i = .reset → t.cpu.pc = s.cpu.pc ∧ t.cpu.spc = s.cpu.spc ∧ t.cpu.ssr = s.cpu.ssr ∧
      t.cpu.sgr = s.cpu.sgr) ∧
    (i ≠ .reset → ∀ j : Nat, j ≠ s.cfg.srMd.val → j ≠ s.cfg.srRb.val → j ≠ s.cfg.srBl.val →
      bit t.cpu.sr j = bit s.cpu.sr j) ∧
    ((i = .reset → s.cfg.reset = defaultReset) →
      ∀ j : Nat, bit s.cpu.sr j = true → bit t.cpu.sr j = true) ∧
    (t.cfg = s.cfg ∧ t.pins16 = s.pins16 ∧ t.pins4 = s.pins4 ∧ t.events = s.events) ∧
    ((∀ dt, i ≠ .advance dt) → t.now = s.now) ∧
    ((∀ n, i ≠ .dmaData n) → (∀ n, i ≠ .dmaDdt n) → t.port = s.port ∧ t.draws = s.draws) ∧
    (∃ new, t.outputs = s.outputs ++ new)

/-- 20_memory R90: which operations may change each unit's own state: a DMA channel, a TMU channel, the
refresh timer, the clock's deadline, the GPIO state, the controller's lines and its priorities. -/
def Obligations.UnitFrame : Prop :=
  ∀ (i : Instr) (s t : State), exec i s = .next t → i ≠ .reset →
    (∀ n : Chan, n ∉ i.checks → i ≠ .dmaData n → i ≠ .fire (.dma n) → i ≠ .setNmi true →
      t.chan n = s.chan n) ∧
    (∀ n : TmuChan, i.writesReg ≠ some .tstr → i.writesReg ≠ some (.tcnt n) → i.writesReg ≠ some (.tcr n) →
      i ≠ .fire (.tmu n) → t.timer n = s.timer n) ∧
    (i.writesReg ∉ [some .rtcsr, some .rtcnt, some .rtcor] → i ≠ .fire .ref → t.refresh = s.refresh) ∧
    (i.writesReg ≠ some .rcr2 → i ≠ .fire .rtc → t.rtcDeadline = s.rtcDeadline) ∧
    (i.writesReg ∉ [some .pctra, some .pctrb] → t.gpio = s.gpio) ∧
    ((∀ r : Fin 4, i.writesReg ≠ some (.ipr r)) → t.intc.prio = s.intc.prio) ∧
    ((∀ k v, i ≠ .setIrl k v) → t.intc.irlLine = s.intc.irlLine) ∧
    ((∀ v, i ≠ .setIrln v) → t.intc.irlLevel = s.intc.irlLevel) ∧
    ((∀ v, i ≠ .setNmi v) → t.intc.nmiLine = s.intc.nmiLine)

/-- 10_state R54: what sets each of the nine status flags: a flag that is clear before a well-formed operation
and set after it was set by what the table names, or by a write of its own register. `REQUEST` sets
`intc.pending` as an operation or within `SET_IRL`, `SET_IRLN`, `SET_NMI` and the expiries that report;
`RECOMPUTE` sets `intc.test` as an operation or within those, `UNREQUEST`, `RAISE`, `BOUNDARY` and the writes of
`IPRA`..`IPRD`, `ICR` and `TCRn`. A pending flag that is clear is fresh (R43) and the reset values are the
spec's. -/
def Obligations.FlagsSetOnlyAsTabled : Prop :=
  ∀ (i : Instr) (s t : State), i.wellFormed s.cfg = true → s.cfg.separate = true →
    (i = .reset → s.cfg.reset = defaultReset) → exec i s = .next t →
    (s.intc.pending = false → (∀ y : Source, s.intc.requesting[y] = false) → t.intc.pending = true →
      (∃ x, i = .request x) ∨ (∃ k, i = .setIrl k true) ∨ (∃ v, i = .setIrln v) ∨ i = .setNmi true ∨
      (∃ n, i = .fire (.dma n)) ∨ (∃ n, i = .fire (.tmu n))) ∧
    (s.intc.test = false → t.intc.test = true →
      i = .recompute ∨ (∃ x, i = .request x) ∨ (∃ x, i = .unrequest x) ∨ (∃ x, i = .raise x) ∨
      i = .boundary false ∨ (∃ k v, i = .setIrl k v) ∨ (∃ v, i = .setIrln v) ∨ i = .setNmi true ∨
      (∃ n, i = .fire (.dma n)) ∨ (∃ n, i = .fire (.tmu n)) ∨
      (∃ r, i.writesReg = some (.ipr r)) ∨ i.writesReg = some .icr ∨ (∃ n, i.writesReg = some (.tcr n))) ∧
    (bit (s.reg .dmaor) 2 = false → bit (t.reg .dmaor) 2 = false) ∧
    (bit (s.reg .dmaor) 1 = false → bit (t.reg .dmaor) 1 = true → i = .setNmi true) ∧
    (∀ n : Chan, bit (s.reg (.chcr n)) 1 = false → bit (t.reg (.chcr n)) 1 = true →
      i = .fire (.dma n) ∨ i.writesReg = some (.chcr n)) ∧
    (bit (s.reg .rtcsr) 7 = false → bit (t.reg .rtcsr) 7 = true →
      i = .fire .ref ∨ i.writesReg = some .rtcsr) ∧
    (bit (s.reg .rtcsr) 2 = false → bit (t.reg .rtcsr) 2 = true →
      i = .fire .ref ∨ i.writesReg = some .rtcsr) ∧
    (bit (s.reg .rcr1) 7 = false → bit (t.reg .rcr1) 7 = true →
      i = .fire .rtc ∨ i.writesReg = some .rcr1) ∧
    (∀ n : TmuChan, bit (s.reg (.tcr n)) 8 = false → bit (t.reg (.tcr n)) 8 = true →
      i = .fire (.tmu n) ∨ i.writesReg = some (.tcr n))

/-- 00_scope R16: no rule reads the outputs. With other outputs before it, an operation does the same and
appends the same. -/
def Obligations.OutputsAreNeverRead : Prop :=
  ∀ (i : Instr) (s : State) (o : List Output),
    (∀ t, exec i s = .next t →
      exec i { s with outputs := o ++ s.outputs } = .next { t with outputs := o ++ t.outputs }) ∧
    (∀ e, exec i s = .refused e → exec i { s with outputs := o ++ s.outputs } = .refused e)

end
end

