-- ==== Sys2Proof/Laws/State.lean ====
section
/-! SUPPORT. One lemma per field per update of the state: what each update writes, and that it leaves every
other field, so that no proof unfolds a record update. -/
namespace Sys2Proof.Machine
open Sys2Proof

variable (s : State)


/-! ## `setCell` -/

@[simp] theorem setCell_cfg (i : Nat) (v : Word) : (s.setCell i v).cfg = s.cfg := rfl
@[simp] theorem setCell_cpu (i : Nat) (v : Word) : (s.setCell i v).cpu = s.cpu := rfl
@[simp] theorem setCell_intc (i : Nat) (v : Word) : (s.setCell i v).intc = s.intc := rfl
@[simp] theorem setCell_dma (i : Nat) (v : Word) : (s.setCell i v).dma = s.dma := rfl
@[simp] theorem setCell_tmu (i : Nat) (v : Word) : (s.setCell i v).tmu = s.tmu := rfl
@[simp] theorem setCell_refresh (i : Nat) (v : Word) : (s.setCell i v).refresh = s.refresh := rfl
@[simp] theorem setCell_rtcDeadline (i : Nat) (v : Word) : (s.setCell i v).rtcDeadline = s.rtcDeadline := rfl
@[simp] theorem setCell_gpio (i : Nat) (v : Word) : (s.setCell i v).gpio = s.gpio := rfl
@[simp] theorem setCell_mem (i : Nat) (v : Word) : (s.setCell i v).mem = s.mem := rfl
@[simp] theorem setCell_now (i : Nat) (v : Word) : (s.setCell i v).now = s.now := rfl
@[simp] theorem setCell_pins16 (i : Nat) (v : Word) : (s.setCell i v).pins16 = s.pins16 := rfl
@[simp] theorem setCell_pins4 (i : Nat) (v : Word) : (s.setCell i v).pins4 = s.pins4 := rfl
@[simp] theorem setCell_port (i : Nat) (v : Word) : (s.setCell i v).port = s.port := rfl
@[simp] theorem setCell_events (i : Nat) (v : Word) : (s.setCell i v).events = s.events := rfl
@[simp] theorem setCell_outputs (i : Nat) (v : Word) : (s.setCell i v).outputs = s.outputs := rfl
@[simp] theorem setCell_draws (i : Nat) (v : Word) : (s.setCell i v).draws = s.draws := rfl
@[simp] theorem setCell_chan (i : Nat) (v : Word) (k : Chan) : (s.setCell i v).chan k = s.chan k := rfl
@[simp] theorem setCell_timer (i : Nat) (v : Word) (k : TmuChan) : (s.setCell i v).timer k = s.timer k := rfl

/-! ## `setReg` -/

@[simp] theorem setReg_cfg (r : Reg) (v : Word) : (s.setReg r v).cfg = s.cfg := rfl
@[simp] theorem setReg_cpu (r : Reg) (v : Word) : (s.setReg r v).cpu = s.cpu := rfl
@[simp] theorem setReg_intc (r : Reg) (v : Word) : (s.setReg r v).intc = s.intc := rfl
@[simp] theorem setReg_dma (r : Reg) (v : Word) : (s.setReg r v).dma = s.dma := rfl
@[simp] theorem setReg_tmu (r : Reg) (v : Word) : (s.setReg r v).tmu = s.tmu := rfl
@[simp] theorem setReg_refresh (r : Reg) (v : Word) : (s.setReg r v).refresh = s.refresh := rfl
@[simp] theorem setReg_rtcDeadline (r : Reg) (v : Word) : (s.setReg r v).rtcDeadline = s.rtcDeadline := rfl
@[simp] theorem setReg_gpio (r : Reg) (v : Word) : (s.setReg r v).gpio = s.gpio := rfl
@[simp] theorem setReg_mem (r : Reg) (v : Word) : (s.setReg r v).mem = s.mem := rfl
@[simp] theorem setReg_now (r : Reg) (v : Word) : (s.setReg r v).now = s.now := rfl
@[simp] theorem setReg_pins16 (r : Reg) (v : Word) : (s.setReg r v).pins16 = s.pins16 := rfl
@[simp] theorem setReg_pins4 (r : Reg) (v : Word) : (s.setReg r v).pins4 = s.pins4 := rfl
@[simp] theorem setReg_port (r : Reg) (v : Word) : (s.setReg r v).port = s.port := rfl
@[simp] theorem setReg_events (r : Reg) (v : Word) : (s.setReg r v).events = s.events := rfl
@[simp] theorem setReg_outputs (r : Reg) (v : Word) : (s.setReg r v).outputs = s.outputs := rfl
@[simp] theorem setReg_draws (r : Reg) (v : Word) : (s.setReg r v).draws = s.draws := rfl
@[simp] theorem setReg_chan (r : Reg) (v : Word) (k : Chan) : (s.setReg r v).chan k = s.chan k := rfl
@[simp] theorem setReg_timer (r : Reg) (v : Word) (k : TmuChan) : (s.setReg r v).timer k = s.timer k := rfl

/-! ## `setIntc` -/

@[simp] theorem setIntc_cfg (i : Intc) : (s.setIntc i).cfg = s.cfg := rfl
@[simp] theorem setIntc_cpu (i : Intc) : (s.setIntc i).cpu = s.cpu := rfl
@[simp] theorem setIntc_intc (i : Intc) : (s.setIntc i).intc = i := rfl
@[simp] theorem setIntc_dma (i : Intc) : (s.setIntc i).dma = s.dma := rfl
@[simp] theorem setIntc_tmu (i : Intc) : (s.setIntc i).tmu = s.tmu := rfl
@[simp] theorem setIntc_refresh (i : Intc) : (s.setIntc i).refresh = s.refresh := rfl
@[simp] theorem setIntc_rtcDeadline (i : Intc) : (s.setIntc i).rtcDeadline = s.rtcDeadline := rfl
@[simp] theorem setIntc_gpio (i : Intc) : (s.setIntc i).gpio = s.gpio := rfl
@[simp] theorem setIntc_regs (i : Intc) : (s.setIntc i).regs = s.regs := rfl
@[simp] theorem setIntc_mem (i : Intc) : (s.setIntc i).mem = s.mem := rfl
@[simp] theorem setIntc_now (i : Intc) : (s.setIntc i).now = s.now := rfl
@[simp] theorem setIntc_pins16 (i : Intc) : (s.setIntc i).pins16 = s.pins16 := rfl
@[simp] theorem setIntc_pins4 (i : Intc) : (s.setIntc i).pins4 = s.pins4 := rfl
@[simp] theorem setIntc_port (i : Intc) : (s.setIntc i).port = s.port := rfl
@[simp] theorem setIntc_events (i : Intc) : (s.setIntc i).events = s.events := rfl
@[simp] theorem setIntc_outputs (i : Intc) : (s.setIntc i).outputs = s.outputs := rfl
@[simp] theorem setIntc_draws (i : Intc) : (s.setIntc i).draws = s.draws := rfl
@[simp] theorem setIntc_cell (i : Intc) (k : Nat) : (s.setIntc i).cell k = s.cell k := rfl
@[simp] theorem setIntc_reg (i : Intc) (k : Reg) : (s.setIntc i).reg k = s.reg k := rfl
@[simp] theorem setIntc_chan (i : Intc) (k : Chan) : (s.setIntc i).chan k = s.chan k := rfl
@[simp] theorem setIntc_timer (i : Intc) (k : TmuChan) : (s.setIntc i).timer k = s.timer k := rfl

/-! ## `setCpu` -/

@[simp] theorem setCpu_cfg (c : Cpu) : (s.setCpu c).cfg = s.cfg := rfl
@[simp] theorem setCpu_cpu (c : Cpu) : (s.setCpu c).cpu = c := rfl
@[simp] theorem setCpu_intc (c : Cpu) : (s.setCpu c).intc = s.intc := rfl
@[simp] theorem setCpu_dma (c : Cpu) : (s.setCpu c).dma = s.dma := rfl
@[simp] theorem setCpu_tmu (c : Cpu) : (s.setCpu c).tmu = s.tmu := rfl
@[simp] theorem setCpu_refresh (c : Cpu) : (s.setCpu c).refresh = s.refresh := rfl
@[simp] theorem setCpu_rtcDeadline (c : Cpu) : (s.setCpu c).rtcDeadline = s.rtcDeadline := rfl
@[simp] theorem setCpu_gpio (c : Cpu) : (s.setCpu c).gpio = s.gpio := rfl
@[simp] theorem setCpu_regs (c : Cpu) : (s.setCpu c).regs = s.regs := rfl
@[simp] theorem setCpu_mem (c : Cpu) : (s.setCpu c).mem = s.mem := rfl
@[simp] theorem setCpu_now (c : Cpu) : (s.setCpu c).now = s.now := rfl
@[simp] theorem setCpu_pins16 (c : Cpu) : (s.setCpu c).pins16 = s.pins16 := rfl
@[simp] theorem setCpu_pins4 (c : Cpu) : (s.setCpu c).pins4 = s.pins4 := rfl
@[simp] theorem setCpu_port (c : Cpu) : (s.setCpu c).port = s.port := rfl
@[simp] theorem setCpu_events (c : Cpu) : (s.setCpu c).events = s.events := rfl
@[simp] theorem setCpu_outputs (c : Cpu) : (s.setCpu c).outputs = s.outputs := rfl
@[simp] theorem setCpu_draws (c : Cpu) : (s.setCpu c).draws = s.draws := rfl
@[simp] theorem setCpu_cell (c : Cpu) (k : Nat) : (s.setCpu c).cell k = s.cell k := rfl
@[simp] theorem setCpu_reg (c : Cpu) (k : Reg) : (s.setCpu c).reg k = s.reg k := rfl
@[simp] theorem setCpu_chan (c : Cpu) (k : Chan) : (s.setCpu c).chan k = s.chan k := rfl
@[simp] theorem setCpu_timer (c : Cpu) (k : TmuChan) : (s.setCpu c).timer k = s.timer k := rfl

/-! ## `setChan` -/

@[simp] theorem setChan_cfg (n : Chan) (c : DmaChannel) : (s.setChan n c).cfg = s.cfg := rfl
@[simp] theorem setChan_cpu (n : Chan) (c : DmaChannel) : (s.setChan n c).cpu = s.cpu := rfl
@[simp] theorem setChan_intc (n : Chan) (c : DmaChannel) : (s.setChan n c).intc = s.intc := rfl
@[simp] theorem setChan_dma (n : Chan) (c : DmaChannel) : (s.setChan n c).dma = s.dma.set n c := rfl
@[simp] theorem setChan_tmu (n : Chan) (c : DmaChannel) : (s.setChan n c).tmu = s.tmu := rfl
@[simp] theorem setChan_refresh (n : Chan) (c : DmaChannel) : (s.setChan n c).refresh = s.refresh := rfl
@[simp] theorem setChan_rtcDeadline (n : Chan) (c : DmaChannel) : (s.setChan n c).rtcDeadline = s.rtcDeadline := rfl
@[simp] theorem setChan_gpio (n : Chan) (c : DmaChannel) : (s.setChan n c).gpio = s.gpio := rfl
@[simp] theorem setChan_regs (n : Chan) (c : DmaChannel) : (s.setChan n c).regs = s.regs := rfl
@[simp] theorem setChan_mem (n : Chan) (c : DmaChannel) : (s.setChan n c).mem = s.mem := rfl
@[simp] theorem setChan_now (n : Chan) (c : DmaChannel) : (s.setChan n c).now = s.now := rfl
@[simp] theorem setChan_pins16 (n : Chan) (c : DmaChannel) : (s.setChan n c).pins16 = s.pins16 := rfl
@[simp] theorem setChan_pins4 (n : Chan) (c : DmaChannel) : (s.setChan n c).pins4 = s.pins4 := rfl
@[simp] theorem setChan_port (n : Chan) (c : DmaChannel) : (s.setChan n c).port = s.port := rfl
@[simp] theorem setChan_events (n : Chan) (c : DmaChannel) : (s.setChan n c).events = s.events := rfl
@[simp] theorem setChan_outputs (n : Chan) (c : DmaChannel) : (s.setChan n c).outputs = s.outputs := rfl
@[simp] theorem setChan_draws (n : Chan) (c : DmaChannel) : (s.setChan n c).draws = s.draws := rfl
@[simp] theorem setChan_cell (n : Chan) (c : DmaChannel) (k : Nat) : (s.setChan n c).cell k = s.cell k := rfl
@[simp] theorem setChan_reg (n : Chan) (c : DmaChannel) (k : Reg) : (s.setChan n c).reg k = s.reg k := rfl
@[simp] theorem setChan_timer (n : Chan) (c : DmaChannel) (k : TmuChan) : (s.setChan n c).timer k = s.timer k := rfl

/-! ## `setTimer` -/

@[simp] theorem setTimer_cfg (n : TmuChan) (t : TmuChannel) : (s.setTimer n t).cfg = s.cfg := rfl
@[simp] theorem setTimer_cpu (n : TmuChan) (t : TmuChannel) : (s.setTimer n t).cpu = s.cpu := rfl
@[simp] theorem setTimer_intc (n : TmuChan) (t : TmuChannel) : (s.setTimer n t).intc = s.intc := rfl
@[simp] theorem setTimer_dma (n : TmuChan) (t : TmuChannel) : (s.setTimer n t).dma = s.dma := rfl
@[simp] theorem setTimer_tmu (n : TmuChan) (t : TmuChannel) : (s.setTimer n t).tmu = s.tmu.set n t := rfl
@[simp] theorem setTimer_refresh (n : TmuChan) (t : TmuChannel) : (s.setTimer n t).refresh = s.refresh := rfl
@[simp] theorem setTimer_rtcDeadline (n : TmuChan) (t : TmuChannel) : (s.setTimer n t).rtcDeadline = s.rtcDeadline := rfl
@[simp] theorem setTimer_gpio (n : TmuChan) (t : TmuChannel) : (s.setTimer n t).gpio = s.gpio := rfl
@[simp] theorem setTimer_regs (n : TmuChan) (t : TmuChannel) : (s.setTimer n t).regs = s.regs := rfl
@[simp] theorem setTimer_mem (n : TmuChan) (t : TmuChannel) : (s.setTimer n t).mem = s.mem := rfl
@[simp] theorem setTimer_now (n : TmuChan) (t : TmuChannel) : (s.setTimer n t).now = s.now := rfl
@[simp] theorem setTimer_pins16 (n : TmuChan) (t : TmuChannel) : (s.setTimer n t).pins16 = s.pins16 := rfl
@[simp] theorem setTimer_pins4 (n : TmuChan) (t : TmuChannel) : (s.setTimer n t).pins4 = s.pins4 := rfl
@[simp] theorem setTimer_port (n : TmuChan) (t : TmuChannel) : (s.setTimer n t).port = s.port := rfl
@[simp] theorem setTimer_events (n : TmuChan) (t : TmuChannel) : (s.setTimer n t).events = s.events := rfl
@[simp] theorem setTimer_outputs (n : TmuChan) (t : TmuChannel) : (s.setTimer n t).outputs = s.outputs := rfl
@[simp] theorem setTimer_draws (n : TmuChan) (t : TmuChannel) : (s.setTimer n t).draws = s.draws := rfl
@[simp] theorem setTimer_cell (n : TmuChan) (t : TmuChannel) (k : Nat) : (s.setTimer n t).cell k = s.cell k := rfl
@[simp] theorem setTimer_reg (n : TmuChan) (t : TmuChannel) (k : Reg) : (s.setTimer n t).reg k = s.reg k := rfl
@[simp] theorem setTimer_chan (n : TmuChan) (t : TmuChannel) (k : Chan) : (s.setTimer n t).chan k = s.chan k := rfl

/-! ## `setRefresh` -/

@[simp] theorem setRefresh_cfg (r : Refresh) : (s.setRefresh r).cfg = s.cfg := rfl
@[simp] theorem setRefresh_cpu (r : Refresh) : (s.setRefresh r).cpu = s.cpu := rfl
@[simp] theorem setRefresh_intc (r : Refresh) : (s.setRefresh r).intc = s.intc := rfl
@[simp] theorem setRefresh_dma (r : Refresh) : (s.setRefresh r).dma = s.dma := rfl
@[simp] theorem setRefresh_tmu (r : Refresh) : (s.setRefresh r).tmu = s.tmu := rfl
@[simp] theorem setRefresh_refresh (r : Refresh) : (s.setRefresh r).refresh = r := rfl
@[simp] theorem setRefresh_rtcDeadline (r : Refresh) : (s.setRefresh r).rtcDeadline = s.rtcDeadline := rfl
@[simp] theorem setRefresh_gpio (r : Refresh) : (s.setRefresh r).gpio = s.gpio := rfl
@[simp] theorem setRefresh_regs (r : Refresh) : (s.setRefresh r).regs = s.regs := rfl
@[simp] theorem setRefresh_mem (r : Refresh) : (s.setRefresh r).mem = s.mem := rfl
@[simp] theorem setRefresh_now (r : Refresh) : (s.setRefresh r).now = s.now := rfl
@[simp] theorem setRefresh_pins16 (r : Refresh) : (s.setRefresh r).pins16 = s.pins16 := rfl
@[simp] theorem setRefresh_pins4 (r : Refresh) : (s.setRefresh r).pins4 = s.pins4 := rfl
@[simp] theorem setRefresh_port (r : Refresh) : (s.setRefresh r).port = s.port := rfl
@[simp] theorem setRefresh_events (r : Refresh) : (s.setRefresh r).events = s.events := rfl
@[simp] theorem setRefresh_outputs (r : Refresh) : (s.setRefresh r).outputs = s.outputs := rfl
@[simp] theorem setRefresh_draws (r : Refresh) : (s.setRefresh r).draws = s.draws := rfl
@[simp] theorem setRefresh_cell (r : Refresh) (k : Nat) : (s.setRefresh r).cell k = s.cell k := rfl
@[simp] theorem setRefresh_reg (r : Refresh) (k : Reg) : (s.setRefresh r).reg k = s.reg k := rfl
@[simp] theorem setRefresh_chan (r : Refresh) (k : Chan) : (s.setRefresh r).chan k = s.chan k := rfl
@[simp] theorem setRefresh_timer (r : Refresh) (k : TmuChan) : (s.setRefresh r).timer k = s.timer k := rfl

/-! ## `setRtc` -/

@[simp] theorem setRtc_cfg (d : Option Time) : (s.setRtc d).cfg = s.cfg := rfl
@[simp] theorem setRtc_cpu (d : Option Time) : (s.setRtc d).cpu = s.cpu := rfl
@[simp] theorem setRtc_intc (d : Option Time) : (s.setRtc d).intc = s.intc := rfl
@[simp] theorem setRtc_dma (d : Option Time) : (s.setRtc d).dma = s.dma := rfl
@[simp] theorem setRtc_tmu (d : Option Time) : (s.setRtc d).tmu = s.tmu := rfl
@[simp] theorem setRtc_refresh (d : Option Time) : (s.setRtc d).refresh = s.refresh := rfl
@[simp] theorem setRtc_rtcDeadline (d : Option Time) : (s.setRtc d).rtcDeadline = d := rfl
@[simp] theorem setRtc_gpio (d : Option Time) : (s.setRtc d).gpio = s.gpio := rfl
@[simp] theorem setRtc_regs (d : Option Time) : (s.setRtc d).regs = s.regs := rfl
@[simp] theorem setRtc_mem (d : Option Time) : (s.setRtc d).mem = s.mem := rfl
@[simp] theorem setRtc_now (d : Option Time) : (s.setRtc d).now = s.now := rfl
@[simp] theorem setRtc_pins16 (d : Option Time) : (s.setRtc d).pins16 = s.pins16 := rfl
@[simp] theorem setRtc_pins4 (d : Option Time) : (s.setRtc d).pins4 = s.pins4 := rfl
@[simp] theorem setRtc_port (d : Option Time) : (s.setRtc d).port = s.port := rfl
@[simp] theorem setRtc_events (d : Option Time) : (s.setRtc d).events = s.events := rfl
@[simp] theorem setRtc_outputs (d : Option Time) : (s.setRtc d).outputs = s.outputs := rfl
@[simp] theorem setRtc_draws (d : Option Time) : (s.setRtc d).draws = s.draws := rfl
@[simp] theorem setRtc_cell (d : Option Time) (k : Nat) : (s.setRtc d).cell k = s.cell k := rfl
@[simp] theorem setRtc_reg (d : Option Time) (k : Reg) : (s.setRtc d).reg k = s.reg k := rfl
@[simp] theorem setRtc_chan (d : Option Time) (k : Chan) : (s.setRtc d).chan k = s.chan k := rfl
@[simp] theorem setRtc_timer (d : Option Time) (k : TmuChan) : (s.setRtc d).timer k = s.timer k := rfl

/-! ## `setGpio` -/

@[simp] theorem setGpio_cfg (g : Gpio) : (s.setGpio g).cfg = s.cfg := rfl
@[simp] theorem setGpio_cpu (g : Gpio) : (s.setGpio g).cpu = s.cpu := rfl
@[simp] theorem setGpio_intc (g : Gpio) : (s.setGpio g).intc = s.intc := rfl
@[simp] theorem setGpio_dma (g : Gpio) : (s.setGpio g).dma = s.dma := rfl
@[simp] theorem setGpio_tmu (g : Gpio) : (s.setGpio g).tmu = s.tmu := rfl
@[simp] theorem setGpio_refresh (g : Gpio) : (s.setGpio g).refresh = s.refresh := rfl
@[simp] theorem setGpio_rtcDeadline (g : Gpio) : (s.setGpio g).rtcDeadline = s.rtcDeadline := rfl
@[simp] theorem setGpio_gpio (g : Gpio) : (s.setGpio g).gpio = g := rfl
@[simp] theorem setGpio_regs (g : Gpio) : (s.setGpio g).regs = s.regs := rfl
@[simp] theorem setGpio_mem (g : Gpio) : (s.setGpio g).mem = s.mem := rfl
@[simp] theorem setGpio_now (g : Gpio) : (s.setGpio g).now = s.now := rfl
@[simp] theorem setGpio_pins16 (g : Gpio) : (s.setGpio g).pins16 = s.pins16 := rfl
@[simp] theorem setGpio_pins4 (g : Gpio) : (s.setGpio g).pins4 = s.pins4 := rfl
@[simp] theorem setGpio_port (g : Gpio) : (s.setGpio g).port = s.port := rfl
@[simp] theorem setGpio_events (g : Gpio) : (s.setGpio g).events = s.events := rfl
@[simp] theorem setGpio_outputs (g : Gpio) : (s.setGpio g).outputs = s.outputs := rfl
@[simp] theorem setGpio_draws (g : Gpio) : (s.setGpio g).draws = s.draws := rfl
@[simp] theorem setGpio_cell (g : Gpio) (k : Nat) : (s.setGpio g).cell k = s.cell k := rfl
@[simp] theorem setGpio_reg (g : Gpio) (k : Reg) : (s.setGpio g).reg k = s.reg k := rfl
@[simp] theorem setGpio_chan (g : Gpio) (k : Chan) : (s.setGpio g).chan k = s.chan k := rfl
@[simp] theorem setGpio_timer (g : Gpio) (k : TmuChan) : (s.setGpio g).timer k = s.timer k := rfl

/-! ## `setMem` -/

@[simp] theorem setMem_cfg (m : Memory) : (s.setMem m).cfg = s.cfg := rfl
@[simp] theorem setMem_cpu (m : Memory) : (s.setMem m).cpu = s.cpu := rfl
@[simp] theorem setMem_intc (m : Memory) : (s.setMem m).intc = s.intc := rfl
@[simp] theorem setMem_dma (m : Memory) : (s.setMem m).dma = s.dma := rfl
@[simp] theorem setMem_tmu (m : Memory) : (s.setMem m).tmu = s.tmu := rfl
@[simp] theorem setMem_refresh (m : Memory) : (s.setMem m).refresh = s.refresh := rfl
@[simp] theorem setMem_rtcDeadline (m : Memory) : (s.setMem m).rtcDeadline = s.rtcDeadline := rfl
@[simp] theorem setMem_gpio (m : Memory) : (s.setMem m).gpio = s.gpio := rfl
@[simp] theorem setMem_regs (m : Memory) : (s.setMem m).regs = s.regs := rfl
@[simp] theorem setMem_mem (m : Memory) : (s.setMem m).mem = m := rfl
@[simp] theorem setMem_now (m : Memory) : (s.setMem m).now = s.now := rfl
@[simp] theorem setMem_pins16 (m : Memory) : (s.setMem m).pins16 = s.pins16 := rfl
@[simp] theorem setMem_pins4 (m : Memory) : (s.setMem m).pins4 = s.pins4 := rfl
@[simp] theorem setMem_port (m : Memory) : (s.setMem m).port = s.port := rfl
@[simp] theorem setMem_events (m : Memory) : (s.setMem m).events = s.events := rfl
@[simp] theorem setMem_outputs (m : Memory) : (s.setMem m).outputs = s.outputs := rfl
@[simp] theorem setMem_draws (m : Memory) : (s.setMem m).draws = s.draws := rfl
@[simp] theorem setMem_cell (m : Memory) (k : Nat) : (s.setMem m).cell k = s.cell k := rfl
@[simp] theorem setMem_reg (m : Memory) (k : Reg) : (s.setMem m).reg k = s.reg k := rfl
@[simp] theorem setMem_chan (m : Memory) (k : Chan) : (s.setMem m).chan k = s.chan k := rfl
@[simp] theorem setMem_timer (m : Memory) (k : TmuChan) : (s.setMem m).timer k = s.timer k := rfl

/-! ## `setNow` -/

@[simp] theorem setNow_cfg (t : Time) : (s.setNow t).cfg = s.cfg := rfl
@[simp] theorem setNow_cpu (t : Time) : (s.setNow t).cpu = s.cpu := rfl
@[simp] theorem setNow_intc (t : Time) : (s.setNow t).intc = s.intc := rfl
@[simp] theorem setNow_dma (t : Time) : (s.setNow t).dma = s.dma := rfl
@[simp] theorem setNow_tmu (t : Time) : (s.setNow t).tmu = s.tmu := rfl
@[simp] theorem setNow_refresh (t : Time) : (s.setNow t).refresh = s.refresh := rfl
@[simp] theorem setNow_rtcDeadline (t : Time) : (s.setNow t).rtcDeadline = s.rtcDeadline := rfl
@[simp] theorem setNow_gpio (t : Time) : (s.setNow t).gpio = s.gpio := rfl
@[simp] theorem setNow_regs (t : Time) : (s.setNow t).regs = s.regs := rfl
@[simp] theorem setNow_mem (t : Time) : (s.setNow t).mem = s.mem := rfl
@[simp] theorem setNow_now (t : Time) : (s.setNow t).now = t := rfl
@[simp] theorem setNow_pins16 (t : Time) : (s.setNow t).pins16 = s.pins16 := rfl
@[simp] theorem setNow_pins4 (t : Time) : (s.setNow t).pins4 = s.pins4 := rfl
@[simp] theorem setNow_port (t : Time) : (s.setNow t).port = s.port := rfl
@[simp] theorem setNow_events (t : Time) : (s.setNow t).events = s.events := rfl
@[simp] theorem setNow_outputs (t : Time) : (s.setNow t).outputs = s.outputs := rfl
@[simp] theorem setNow_draws (t : Time) : (s.setNow t).draws = s.draws := rfl
@[simp] theorem setNow_cell (t : Time) (k : Nat) : (s.setNow t).cell k = s.cell k := rfl
@[simp] theorem setNow_reg (t : Time) (k : Reg) : (s.setNow t).reg k = s.reg k := rfl
@[simp] theorem setNow_chan (t : Time) (k : Chan) : (s.setNow t).chan k = s.chan k := rfl
@[simp] theorem setNow_timer (t : Time) (k : TmuChan) : (s.setNow t).timer k = s.timer k := rfl

/-! ## `setPort` -/

@[simp] theorem setPort_cfg (p : HostPort) : (s.setPort p).cfg = s.cfg := rfl
@[simp] theorem setPort_cpu (p : HostPort) : (s.setPort p).cpu = s.cpu := rfl
@[simp] theorem setPort_intc (p : HostPort) : (s.setPort p).intc = s.intc := rfl
@[simp] theorem setPort_dma (p : HostPort) : (s.setPort p).dma = s.dma := rfl
@[simp] theorem setPort_tmu (p : HostPort) : (s.setPort p).tmu = s.tmu := rfl
@[simp] theorem setPort_refresh (p : HostPort) : (s.setPort p).refresh = s.refresh := rfl
@[simp] theorem setPort_rtcDeadline (p : HostPort) : (s.setPort p).rtcDeadline = s.rtcDeadline := rfl
@[simp] theorem setPort_gpio (p : HostPort) : (s.setPort p).gpio = s.gpio := rfl
@[simp] theorem setPort_regs (p : HostPort) : (s.setPort p).regs = s.regs := rfl
@[simp] theorem setPort_mem (p : HostPort) : (s.setPort p).mem = s.mem := rfl
@[simp] theorem setPort_now (p : HostPort) : (s.setPort p).now = s.now := rfl
@[simp] theorem setPort_pins16 (p : HostPort) : (s.setPort p).pins16 = s.pins16 := rfl
@[simp] theorem setPort_pins4 (p : HostPort) : (s.setPort p).pins4 = s.pins4 := rfl
@[simp] theorem setPort_port (p : HostPort) : (s.setPort p).port = p := rfl
@[simp] theorem setPort_events (p : HostPort) : (s.setPort p).events = s.events := rfl
@[simp] theorem setPort_outputs (p : HostPort) : (s.setPort p).outputs = s.outputs := rfl
@[simp] theorem setPort_draws (p : HostPort) : (s.setPort p).draws = s.draws := rfl
@[simp] theorem setPort_cell (p : HostPort) (k : Nat) : (s.setPort p).cell k = s.cell k := rfl
@[simp] theorem setPort_reg (p : HostPort) (k : Reg) : (s.setPort p).reg k = s.reg k := rfl
@[simp] theorem setPort_chan (p : HostPort) (k : Chan) : (s.setPort p).chan k = s.chan k := rfl
@[simp] theorem setPort_timer (p : HostPort) (k : TmuChan) : (s.setPort p).timer k = s.timer k := rfl

/-! ## `setRecord` -/

@[simp] theorem setRecord_cfg (p : DdtRecord) : (s.setRecord p).cfg = s.cfg := rfl
@[simp] theorem setRecord_cpu (p : DdtRecord) : (s.setRecord p).cpu = s.cpu := rfl
@[simp] theorem setRecord_intc (p : DdtRecord) : (s.setRecord p).intc = s.intc := rfl
@[simp] theorem setRecord_dma (p : DdtRecord) : (s.setRecord p).dma = s.dma := rfl
@[simp] theorem setRecord_tmu (p : DdtRecord) : (s.setRecord p).tmu = s.tmu := rfl
@[simp] theorem setRecord_refresh (p : DdtRecord) : (s.setRecord p).refresh = s.refresh := rfl
@[simp] theorem setRecord_rtcDeadline (p : DdtRecord) : (s.setRecord p).rtcDeadline = s.rtcDeadline := rfl
@[simp] theorem setRecord_gpio (p : DdtRecord) : (s.setRecord p).gpio = s.gpio := rfl
@[simp] theorem setRecord_regs (p : DdtRecord) : (s.setRecord p).regs = s.regs := rfl
@[simp] theorem setRecord_mem (p : DdtRecord) : (s.setRecord p).mem = s.mem := rfl
@[simp] theorem setRecord_now (p : DdtRecord) : (s.setRecord p).now = s.now := rfl
@[simp] theorem setRecord_pins16 (p : DdtRecord) : (s.setRecord p).pins16 = s.pins16 := rfl
@[simp] theorem setRecord_pins4 (p : DdtRecord) : (s.setRecord p).pins4 = s.pins4 := rfl
@[simp] theorem setRecord_port (p : DdtRecord) : (s.setRecord p).port = { s.port with record := p } := rfl
@[simp] theorem setRecord_events (p : DdtRecord) : (s.setRecord p).events = s.events := rfl
@[simp] theorem setRecord_outputs (p : DdtRecord) : (s.setRecord p).outputs = s.outputs := rfl
@[simp] theorem setRecord_draws (p : DdtRecord) : (s.setRecord p).draws = s.draws := rfl
@[simp] theorem setRecord_cell (p : DdtRecord) (k : Nat) : (s.setRecord p).cell k = s.cell k := rfl
@[simp] theorem setRecord_reg (p : DdtRecord) (k : Reg) : (s.setRecord p).reg k = s.reg k := rfl
@[simp] theorem setRecord_chan (p : DdtRecord) (k : Chan) : (s.setRecord p).chan k = s.chan k := rfl
@[simp] theorem setRecord_timer (p : DdtRecord) (k : TmuChan) : (s.setRecord p).timer k = s.timer k := rfl

/-! ## `setDraws` -/

@[simp] theorem setDraws_cfg (n : Nat) : (s.setDraws n).cfg = s.cfg := rfl
@[simp] theorem setDraws_cpu (n : Nat) : (s.setDraws n).cpu = s.cpu := rfl
@[simp] theorem setDraws_intc (n : Nat) : (s.setDraws n).intc = s.intc := rfl
@[simp] theorem setDraws_dma (n : Nat) : (s.setDraws n).dma = s.dma := rfl
@[simp] theorem setDraws_tmu (n : Nat) : (s.setDraws n).tmu = s.tmu := rfl
@[simp] theorem setDraws_refresh (n : Nat) : (s.setDraws n).refresh = s.refresh := rfl
@[simp] theorem setDraws_rtcDeadline (n : Nat) : (s.setDraws n).rtcDeadline = s.rtcDeadline := rfl
@[simp] theorem setDraws_gpio (n : Nat) : (s.setDraws n).gpio = s.gpio := rfl
@[simp] theorem setDraws_regs (n : Nat) : (s.setDraws n).regs = s.regs := rfl
@[simp] theorem setDraws_mem (n : Nat) : (s.setDraws n).mem = s.mem := rfl
@[simp] theorem setDraws_now (n : Nat) : (s.setDraws n).now = s.now := rfl
@[simp] theorem setDraws_pins16 (n : Nat) : (s.setDraws n).pins16 = s.pins16 := rfl
@[simp] theorem setDraws_pins4 (n : Nat) : (s.setDraws n).pins4 = s.pins4 := rfl
@[simp] theorem setDraws_port (n : Nat) : (s.setDraws n).port = s.port := rfl
@[simp] theorem setDraws_events (n : Nat) : (s.setDraws n).events = s.events := rfl
@[simp] theorem setDraws_outputs (n : Nat) : (s.setDraws n).outputs = s.outputs := rfl
@[simp] theorem setDraws_draws (n : Nat) : (s.setDraws n).draws = n := rfl
@[simp] theorem setDraws_cell (n : Nat) (k : Nat) : (s.setDraws n).cell k = s.cell k := rfl
@[simp] theorem setDraws_reg (n : Nat) (k : Reg) : (s.setDraws n).reg k = s.reg k := rfl
@[simp] theorem setDraws_chan (n : Nat) (k : Chan) : (s.setDraws n).chan k = s.chan k := rfl
@[simp] theorem setDraws_timer (n : Nat) (k : TmuChan) : (s.setDraws n).timer k = s.timer k := rfl

/-! ## `emit` -/

@[simp] theorem emit_cfg (o : Output) : (s.emit o).cfg = s.cfg := rfl
@[simp] theorem emit_cpu (o : Output) : (s.emit o).cpu = s.cpu := rfl
@[simp] theorem emit_intc (o : Output) : (s.emit o).intc = s.intc := rfl
@[simp] theorem emit_dma (o : Output) : (s.emit o).dma = s.dma := rfl
@[simp] theorem emit_tmu (o : Output) : (s.emit o).tmu = s.tmu := rfl
@[simp] theorem emit_refresh (o : Output) : (s.emit o).refresh = s.refresh := rfl
@[simp] theorem emit_rtcDeadline (o : Output) : (s.emit o).rtcDeadline = s.rtcDeadline := rfl
@[simp] theorem emit_gpio (o : Output) : (s.emit o).gpio = s.gpio := rfl
@[simp] theorem emit_regs (o : Output) : (s.emit o).regs = s.regs := rfl
@[simp] theorem emit_mem (o : Output) : (s.emit o).mem = s.mem := rfl
@[simp] theorem emit_now (o : Output) : (s.emit o).now = s.now := rfl
@[simp] theorem emit_pins16 (o : Output) : (s.emit o).pins16 = s.pins16 := rfl
@[simp] theorem emit_pins4 (o : Output) : (s.emit o).pins4 = s.pins4 := rfl
@[simp] theorem emit_port (o : Output) : (s.emit o).port = s.port := rfl
@[simp] theorem emit_events (o : Output) : (s.emit o).events = s.events := rfl
@[simp] theorem emit_outputs (o : Output) : (s.emit o).outputs = s.outputs ++ [o] := rfl
@[simp] theorem emit_draws (o : Output) : (s.emit o).draws = s.draws := rfl
@[simp] theorem emit_cell (o : Output) (k : Nat) : (s.emit o).cell k = s.cell k := rfl
@[simp] theorem emit_reg (o : Output) (k : Reg) : (s.emit o).reg k = s.reg k := rfl
@[simp] theorem emit_chan (o : Output) (k : Chan) : (s.emit o).chan k = s.chan k := rfl
@[simp] theorem emit_timer (o : Output) (k : TmuChan) : (s.emit o).timer k = s.timer k := rfl

/-! ## `emitDiag` -/

@[simp] theorem emitDiag_cfg (d : Diag) : (s.emitDiag d).cfg = s.cfg := rfl
@[simp] theorem emitDiag_cpu (d : Diag) : (s.emitDiag d).cpu = s.cpu := rfl
@[simp] theorem emitDiag_intc (d : Diag) : (s.emitDiag d).intc = s.intc := rfl
@[simp] theorem emitDiag_dma (d : Diag) : (s.emitDiag d).dma = s.dma := rfl
@[simp] theorem emitDiag_tmu (d : Diag) : (s.emitDiag d).tmu = s.tmu := rfl
@[simp] theorem emitDiag_refresh (d : Diag) : (s.emitDiag d).refresh = s.refresh := rfl
@[simp] theorem emitDiag_rtcDeadline (d : Diag) : (s.emitDiag d).rtcDeadline = s.rtcDeadline := rfl
@[simp] theorem emitDiag_gpio (d : Diag) : (s.emitDiag d).gpio = s.gpio := rfl
@[simp] theorem emitDiag_regs (d : Diag) : (s.emitDiag d).regs = s.regs := rfl
@[simp] theorem emitDiag_mem (d : Diag) : (s.emitDiag d).mem = s.mem := rfl
@[simp] theorem emitDiag_now (d : Diag) : (s.emitDiag d).now = s.now := rfl
@[simp] theorem emitDiag_pins16 (d : Diag) : (s.emitDiag d).pins16 = s.pins16 := rfl
@[simp] theorem emitDiag_pins4 (d : Diag) : (s.emitDiag d).pins4 = s.pins4 := rfl
@[simp] theorem emitDiag_port (d : Diag) : (s.emitDiag d).port = s.port := rfl
@[simp] theorem emitDiag_events (d : Diag) : (s.emitDiag d).events = s.events := rfl
@[simp] theorem emitDiag_outputs (d : Diag) : (s.emitDiag d).outputs = s.outputs ++ [.diag d] := rfl
@[simp] theorem emitDiag_draws (d : Diag) : (s.emitDiag d).draws = s.draws := rfl
@[simp] theorem emitDiag_cell (d : Diag) (k : Nat) : (s.emitDiag d).cell k = s.cell k := rfl
@[simp] theorem emitDiag_reg (d : Diag) (k : Reg) : (s.emitDiag d).reg k = s.reg k := rfl
@[simp] theorem emitDiag_chan (d : Diag) (k : Chan) : (s.emitDiag d).chan k = s.chan k := rfl
@[simp] theorem emitDiag_timer (d : Diag) (k : TmuChan) : (s.emitDiag d).timer k = s.timer k := rfl

/-! ## `withEvents` -/

@[simp] theorem withEvents_cfg (es : List Event) : (s.withEvents es).cfg = s.cfg := rfl
@[simp] theorem withEvents_cpu (es : List Event) : (s.withEvents es).cpu = s.cpu := rfl
@[simp] theorem withEvents_intc (es : List Event) : (s.withEvents es).intc = s.intc := rfl
@[simp] theorem withEvents_dma (es : List Event) : (s.withEvents es).dma = s.dma := rfl
@[simp] theorem withEvents_tmu (es : List Event) : (s.withEvents es).tmu = s.tmu := rfl
@[simp] theorem withEvents_refresh (es : List Event) : (s.withEvents es).refresh = s.refresh := rfl
@[simp] theorem withEvents_rtcDeadline (es : List Event) : (s.withEvents es).rtcDeadline = s.rtcDeadline := rfl
@[simp] theorem withEvents_gpio (es : List Event) : (s.withEvents es).gpio = s.gpio := rfl
@[simp] theorem withEvents_regs (es : List Event) : (s.withEvents es).regs = s.regs := rfl
@[simp] theorem withEvents_mem (es : List Event) : (s.withEvents es).mem = s.mem := rfl
@[simp] theorem withEvents_now (es : List Event) : (s.withEvents es).now = s.now := rfl
@[simp] theorem withEvents_pins16 (es : List Event) : (s.withEvents es).pins16 = s.pins16 := rfl
@[simp] theorem withEvents_pins4 (es : List Event) : (s.withEvents es).pins4 = s.pins4 := rfl
@[simp] theorem withEvents_port (es : List Event) : (s.withEvents es).port = s.port := rfl
@[simp] theorem withEvents_events (es : List Event) : (s.withEvents es).events = es := rfl
@[simp] theorem withEvents_outputs (es : List Event) : (s.withEvents es).outputs = s.outputs := rfl
@[simp] theorem withEvents_draws (es : List Event) : (s.withEvents es).draws = s.draws := rfl
@[simp] theorem withEvents_cell (es : List Event) (k : Nat) : (s.withEvents es).cell k = s.cell k := rfl
@[simp] theorem withEvents_reg (es : List Event) (k : Reg) : (s.withEvents es).reg k = s.reg k := rfl
@[simp] theorem withEvents_chan (es : List Event) (k : Chan) : (s.withEvents es).chan k = s.chan k := rfl
@[simp] theorem withEvents_timer (es : List Event) (k : TmuChan) : (s.withEvents es).timer k = s.timer k := rfl

/-! ## The vectors of channels -/

theorem setChan_chan (n m : Chan) (c : DmaChannel) :
    (s.setChan n c).chan m = if m = n then c else s.chan m := by
  unfold State.chan State.setChan
  by_cases h : m = n
  · subst h; simp
  · have : (n : Nat) ≠ m := fun e => h (Fin.ext e.symm)
    simp [h, this]

theorem setTimer_timer (n m : TmuChan) (t : TmuChannel) :
    (s.setTimer n t).timer m = if m = n then t else s.timer m := by
  unfold State.timer State.setTimer
  by_cases h : m = n
  · subst h; simp
  · have : (n : Nat) ≠ m := fun e => h (Fin.ext e.symm)
    simp [h, this]

@[simp] theorem setChan_chan_same (n : Chan) (c : DmaChannel) : (s.setChan n c).chan n = c := by
  simp [setChan_chan]

@[simp] theorem setTimer_timer_same (n : TmuChan) (t : TmuChannel) : (s.setTimer n t).timer n = t := by
  simp [setTimer_timer]

/-! ## Outcomes -/

@[simp] theorem andThen_next (f : State → Result) : andThen (.next s) f = f s := rfl
@[simp] theorem andThen_refused (e : Refusal) (f : State → Result) :
    andThen (.refused e) f = .refused e := rfl

/-- An operation followed by a procedure answers a state exactly where both do. -/
theorem andThen_eq_next {r : Result} {f : State → Result} {t : State} :
    andThen r f = .next t ↔ ∃ s, r = .next s ∧ f s = .next t := by
  cases r with
  | next s => simp
  | fault e => cases e
  | refused e => simp

end Sys2Proof.Machine
end

