-- ==== Sys2Proof/Laws/Cells.lean ====
section
/-! SUPPORT. The laws of the sparse tables: read after write, the canonical form kept, equality of canonical
tables; and from them those of the register file and of the bytes of memory. -/
namespace Sys2Proof.Machine
open Sys2Proof

section Sparse
variable {β : Type} {d : β}

theorem sparseGet_erase (l : List (Nat × β)) (k j : Nat) :
    sparseGet d (sparseErase l k) j = if j = k then d else sparseGet d l j := by
  induction l with
  | nil => simp [sparseErase, sparseGet]
  | cons e l ih =>
    obtain ⟨k', v⟩ := e
    unfold sparseErase at ih ⊢
    by_cases h : k' = k
    · subst h
      by_cases hj : j = k'
      · subst hj; simpa using ih
      · simp [sparseGet, ih, hj, Ne.symm hj]
    · by_cases hj : k' = j
      · subst hj; simp [sparseGet, h]
      · simp [sparseGet, h, ih, hj]

theorem sparseGet_insert (l : List (Nat × β)) (k : Nat) (v : β) (j : Nat) :
    sparseGet d (sparseInsert (sparseErase l k) k v) j = if j = k then v else sparseGet d l j := by
  have key : ∀ m : List (Nat × β), sparseGet d m k = d → (∀ e ∈ m, e.1 ≠ k) →
      sparseGet d (sparseInsert m k v) j = if j = k then v else sparseGet d m j := by
    intro m hd hm
    induction m with
    | nil =>
      by_cases hj : j = k
      · simp [sparseInsert, sparseGet, hj]
      · simp [sparseInsert, sparseGet, hj, Ne.symm hj]
    | cons e m ih =>
      obtain ⟨k', v'⟩ := e
      have hk : k' ≠ k := hm (k', v') (by simp)
      by_cases hlt : k < k'
      · by_cases hj : j = k
        · simp [sparseInsert, sparseGet, hlt, hj]
        · simp [sparseInsert, sparseGet, hlt, hj, Ne.symm hj]
      · have ih' := ih (by simpa [sparseGet, hk] using hd) (fun e he => hm e (by simp [he]))
        by_cases hj : k' = j
        · subst hj; simp [sparseInsert, sparseGet, hlt, hk]
        · simp [sparseInsert, sparseGet, hlt, ih', hj]
  have h := key (sparseErase l k) (by simp [sparseGet_erase]) (by simp [sparseErase])
  rw [h, sparseGet_erase]
  by_cases hj : j = k <;> simp [hj]

/-- The last of two writes to a place is the one that counts. -/
theorem sparseErase_insert (l : List (Nat × β)) (k : Nat) (v : β) :
    sparseErase (sparseInsert l k v) k = sparseErase l k := by
  induction l with
  | nil => simp [sparseErase, sparseInsert]
  | cons e l ih =>
    obtain ⟨k', v'⟩ := e
    unfold sparseErase at ih ⊢
    by_cases hlt : k < k'
    · simp [sparseInsert, hlt]
    · by_cases hk : k' = k
      · simp [sparseInsert, ih, hk]
      · simp [sparseInsert, hlt, ih, hk]

theorem sparseErase_erase (l : List (Nat × β)) (k : Nat) :
    sparseErase (sparseErase l k) k = sparseErase l k := by
  simp [sparseErase, List.filter_filter]

theorem sparseInsert_mem {l : List (Nat × β)} {k : Nat} {v : β} {e : Nat × β}
    (h : e ∈ sparseInsert l k v) : e = (k, v) ∨ e ∈ l := by
  induction l with
  | nil => simpa [sparseInsert] using h
  | cons f l ih =>
    obtain ⟨k', v'⟩ := f
    by_cases hlt : k < k'
    · simpa [sparseInsert, hlt] using h
    · simp only [sparseInsert, hlt, if_false, List.mem_cons] at h
      rcases h with h | h
      · exact .inr (by simp [h])
      · rcases ih h with h | h
        · exact .inl h
        · exact .inr (by simp [h])

/-- An address below every listed one reads the default. -/
theorem sparseGet_of_lt {l : List (Nat × β)} {k : Nat} (h : ∀ e ∈ l, k < e.1) : sparseGet d l k = d := by
  induction l with
  | nil => rfl
  | cons e l ih =>
    have := h e (by simp)
    simp [sparseGet, Nat.ne_of_gt this, ih fun f hf => h f (by simp [hf])]

/-- An address above every listed one reads the default. -/
theorem sparseGet_of_gt {l : List (Nat × β)} {k : Nat} (h : ∀ e ∈ l, e.1 < k) : sparseGet d l k = d := by
  induction l with
  | nil => rfl
  | cons e l ih =>
    have := h e (by simp)
    simp [sparseGet, Nat.ne_of_lt this, ih fun f hf => h f (by simp [hf])]

variable [DecidableEq β]

/-- Read after write, in any table. -/
theorem sparseGet_set (l : List (Nat × β)) (k : Nat) (v : β) (j : Nat) :
    sparseGet d (sparseSet d l k v) j = if j = k then v else sparseGet d l j := by
  unfold sparseSet
  by_cases h : v = d
  · subst h; simp [sparseGet_erase]
  · simp [h, sparseGet_insert]

theorem sparseSet_set (l : List (Nat × β)) (k : Nat) (v v' : β) :
    sparseSet d (sparseSet d l k v) k v' = sparseSet d l k v' := by
  have h : sparseErase (sparseSet d l k v) k = sparseErase l k := by
    unfold sparseSet
    by_cases hv : v = d
    · simp [hv, sparseErase_erase]
    · simp [hv, sparseErase_insert, sparseErase_erase]
  rw [sparseSet, h, sparseSet]

theorem sparseWf_erase {l : List (Nat × β)} (h : sparseWf d l = true) (k : Nat) :
    sparseWf d (sparseErase l k) = true := by
  induction l with
  | nil => simp [sparseErase, sparseWf]
  | cons e l ih =>
    obtain ⟨k', v⟩ := e
    simp only [sparseWf, Bool.and_eq_true, decide_eq_true_eq, List.all_eq_true] at h
    have ih' := ih h.2
    unfold sparseErase at ih' ⊢
    by_cases hk : k' = k
    · simpa [hk] using ih'
    · simp only [List.filter_cons, bne_iff_ne, ne_eq, hk, not_false_eq_true, if_true, sparseWf, ih',
        Bool.and_true, Bool.and_eq_true, decide_eq_true_eq, List.all_eq_true]
      exact ⟨h.1.1, fun e he => h.1.2 e (List.mem_of_mem_filter he)⟩

theorem sparseWf_insert {l : List (Nat × β)} (h : sparseWf d l = true) {k : Nat} {v : β} (hv : v ≠ d)
    (hk : ∀ e ∈ l, e.1 ≠ k) : sparseWf d (sparseInsert l k v) = true := by
  induction l with
  | nil => simp [sparseInsert, sparseWf, hv]
  | cons e l ih =>
    obtain ⟨k', v'⟩ := e
    have hne : k' ≠ k := hk (k', v') (by simp)
    simp only [sparseWf, Bool.and_eq_true, decide_eq_true_eq, List.all_eq_true] at h
    by_cases hlt : k < k'
    · simp only [sparseInsert, hlt, if_true, sparseWf, Bool.and_eq_true, decide_eq_true_eq,
        List.all_eq_true, List.mem_cons]
      refine ⟨⟨hv, ?_⟩, ⟨h.1.1, h.1.2⟩, h.2⟩
      rintro e (rfl | he)
      · exact hlt
      · exact lt_trans hlt (h.1.2 e he)
    · have ih' := ih h.2 (fun e he => hk e (by simp [he]))
      simp only [sparseInsert, hlt, if_false, sparseWf, Bool.and_eq_true, decide_eq_true_eq,
        List.all_eq_true]
      refine ⟨⟨h.1.1, fun e he => ?_⟩, ih'⟩
      rcases sparseInsert_mem he with rfl | he
      · exact lt_of_le_of_ne (Nat.le_of_not_lt hlt) hne
      · exact h.1.2 e he

/-- A write keeps the canonical form. -/
theorem sparseWf_set {l : List (Nat × β)} (h : sparseWf d l = true) (k : Nat) (v : β) :
    sparseWf d (sparseSet d l k v) = true := by
  unfold sparseSet
  by_cases hv : v = d
  · simp [hv, sparseWf_erase h]
  · simpa [hv] using sparseWf_insert (sparseWf_erase h k) hv (by simp [sparseErase])

/-- Canonical tables that read the same are equal. -/
theorem sparse_ext {l l' : List (Nat × β)} (h : sparseWf d l = true) (h' : sparseWf d l' = true)
    (heq : ∀ k, sparseGet d l k = sparseGet d l' k) : l = l' := by
  induction l generalizing l' with
  | nil =>
    cases l' with
    | nil => rfl
    | cons e l' =>
      have := heq e.1
      simp only [sparseWf, Bool.and_eq_true, decide_eq_true_eq] at h'
      simp [sparseGet] at this
      exact absurd this.symm h'.1.1
  | cons e l ih =>
    obtain ⟨k, v⟩ := e
    simp only [sparseWf, Bool.and_eq_true, decide_eq_true_eq, List.all_eq_true] at h
    cases l' with
    | nil =>
      have := heq k
      simp [sparseGet] at this
      exact absurd this h.1.1
    | cons e' l' =>
      obtain ⟨k', v'⟩ := e'
      simp only [sparseWf, Bool.and_eq_true, decide_eq_true_eq, List.all_eq_true] at h'
      have hk : k = k' := by
        rcases Nat.lt_trichotomy k k' with hlt | heq' | hgt
        · have hd : sparseGet d ((k', v') :: l') k = d :=
            sparseGet_of_lt fun e he => by
              rcases List.mem_cons.1 he with rfl | he
              · exact hlt
              · exact lt_trans hlt (h'.1.2 e he)
          have := heq k
          rw [hd] at this
          simp [sparseGet] at this
          exact absurd this h.1.1
        · exact heq'
        · have hd : sparseGet d ((k, v) :: l) k' = d :=
            sparseGet_of_lt fun e he => by
              rcases List.mem_cons.1 he with rfl | he
              · exact hgt
              · exact lt_trans hgt (h.1.2 e he)
          have := heq k'
          rw [hd] at this
          simp [sparseGet] at this
          exact absurd this.symm h'.1.1
      subst hk
      have hv : v = v' := by simpa [sparseGet] using heq k
      subst hv
      congr 1
      refine ih h.2 h'.2 fun j => ?_
      by_cases hj : k = j
      · subst hj
        rw [sparseGet_of_lt h.1.2, sparseGet_of_lt h'.1.2]
      · simpa [sparseGet, hj] using heq j

end Sparse

/-! ## The register file -/

theorem setCell_cell (s : State) (i : Nat) (v : Word) (j : Nat) :
    (s.setCell i v).cell j = if j = i then v else s.cell j := sparseGet_set ..

theorem setCell_setCell (s : State) (i : Nat) (v v' : Word) :
    (s.setCell i v).setCell i v' = s.setCell i v' := by
  simp [State.setCell, sparseSet_set]

theorem setCell_wf {s : State} (h : Cells.wf s.regs = true) (i : Nat) (v : Word) :
    Cells.wf (s.setCell i v).regs = true := sparseWf_set h i v

theorem mem_allRegs (r : Reg) : r ∈ Reg.all := by
  cases r with
  | ipr n => revert n; decide
  | sar n => revert n; decide
  | dar n => revert n; decide
  | dmatcr n => revert n; decide
  | chcr n => revert n; decide
  | tcor n => revert n; decide
  | tcnt n => revert n; decide
  | tcr n => revert n; decide
  | _ => decide

/-- The default parameters give each named register an index of its own (10_state R40). -/
theorem separate_default : defaultConfig.separate = true := by decide

/-- Where the parameters keep the registers apart, two registers with one cell are the same register. -/
theorem index_inj {cfg : Config} (h : cfg.separate = true) {r r' : Reg} : cfg.index r = cfg.index r' ↔ r = r' :=
  ⟨List.inj_on_of_nodup_map (of_decide_eq_true h) (mem_allRegs r) (mem_allRegs r'), fun e => e ▸ rfl⟩

/-- What the register of an index is: one with that index, if there is one. -/
theorem index_of_ofIndex {cfg : Config} {i : Nat} {r : Reg} (h : cfg.ofIndex i = some r) : cfg.index r = i := by
  simpa using List.find?_some h

theorem ofIndex_eq_none {cfg : Config} {i : Nat} : cfg.ofIndex i = none ↔ ∀ r : Reg, cfg.index r ≠ i := by
  simp [Config.ofIndex, mem_allRegs]

/-- Where the parameters keep the registers apart, the register of an index is the inverse of the index. -/
theorem ofIndex_index {cfg : Config} (h : cfg.separate = true) (r : Reg) : cfg.ofIndex (cfg.index r) = some r := by
  cases e : cfg.ofIndex (cfg.index r) with
  | none => exact absurd rfl (ofIndex_eq_none.1 e r)
  | some r' => rw [(index_inj h).1 (index_of_ofIndex e)]

theorem setReg_cell (s : State) (r : Reg) (v : Word) (j : Nat) :
    (s.setReg r v).cell j = if j = s.cfg.index r then v else s.cell j := setCell_cell ..

/-- What the write of a register leaves in another one, whatever cells the parameters give them. -/
theorem setReg_reg_index (s : State) (r : Reg) (v : Word) (k : Reg) :
    (s.setReg r v).reg k = if s.cfg.index k = s.cfg.index r then v else s.reg k := setReg_cell ..

theorem setReg_reg {s : State} (h : s.cfg.separate = true) (r : Reg) (v : Word) (k : Reg) :
    (s.setReg r v).reg k = if k = r then v else s.reg k := by
  simp only [setReg_reg_index, index_inj h]

@[simp] theorem setReg_reg_same (s : State) (r : Reg) (v : Word) : (s.setReg r v).reg r = v := by
  simp [setReg_reg_index]

theorem setReg_setReg (s : State) (r : Reg) (v v' : Word) :
    (s.setReg r v).setReg r v' = s.setReg r v' := setCell_setCell ..

theorem setReg_wf {s : State} (h : Cells.wf s.regs = true) (r : Reg) (v : Word) :
    Cells.wf (s.setReg r v).regs = true := setCell_wf h ..

/-- "store masked data" into the cell of a named register is the register written. -/
theorem storeMasked_index (r : Reg) (w : Width) (a d : Word) (s : State) :
    storeMasked (s.cfg.index r) w a d s = s.setReg r (laneMerge s.cfg.endian w a (s.reg r) d) := rfl

/-! ## System memory -/

theorem byteAt_setByte (m : Memory) (a : Word) (v : Byte) (x : Word) :
    byteAt (setByte m a v) x = if x = a then v else byteAt m x := by
  unfold byteAt setByte
  rw [sparseGet_set]
  simp only [BitVec.toNat_inj]

theorem setByte_wf {m : Memory} (h : Memory.wf m = true) (a : Word) (v : Byte) :
    Memory.wf (setByte m a v) = true := sparseWf_set h ..

theorem memWrite_wf {e : Endian} {m : Memory} (h : Memory.wf m = true) (a : Word) (n : Nat)
    (v : BitVec 64) : Memory.wf (memWrite e m a n v) = true := by
  unfold memWrite
  generalize List.range n = l
  induction l generalizing m with
  | nil => exact h
  | cons i l ih => exact ih (setByte_wf h _ _)

/-- What a write of `n` bytes stores, byte by byte. -/
theorem byteAt_memWrite (e : Endian) (m : Memory) (a : Word) (n : Nat) (hn : n ≤ 2 ^ 32) (v : BitVec 64)
    (x : Word) :
    byteAt (memWrite e m a n v) x =
      if (x - a).toNat < n then v.extractLsb' (8 * byteLane e n (x - a).toNat) 8 else byteAt m x := by
  have key : ∀ k ≤ n, byteAt ((List.range k).foldl
      (fun acc i => setByte acc (a + BitVec.ofNat 32 i) (v.extractLsb' (8 * byteLane e n i) 8)) m) x =
      if (x - a).toNat < k then v.extractLsb' (8 * byteLane e n (x - a).toNat) 8 else byteAt m x := by
    intro k hk
    induction k with
    | zero => simp
    | succ k ih =>
      rw [List.range_succ, List.foldl_append, List.foldl_cons, List.foldl_nil, byteAt_setByte,
        ih (by omega)]
      have hx : x = a + BitVec.ofNat 32 k ↔ (x - a).toNat = k := by
        constructor
        · intro h; subst h
          have hk2 : k < 2 ^ 32 := by omega
          simp [BitVec.toNat_ofNat]
          omega
        · intro h
          apply BitVec.eq_of_toNat_eq
          have := x.isLt; have := a.isLt
          simp [BitVec.toNat_sub, BitVec.toNat_add, BitVec.toNat_ofNat] at h ⊢
          omega
      by_cases h : (x - a).toNat = k
      · rw [if_pos (hx.2 h), if_pos (by omega), h]
      · rw [if_neg (fun e => h (hx.1 e))]
        by_cases h2 : (x - a).toNat < k
        · rw [if_pos h2, if_pos (by omega)]
        · rw [if_neg h2, if_neg (by omega)]
  exact key n le_rfl

/-- A write leaves every other byte. -/
theorem byteAt_memWrite_of_not_mem {e : Endian} {m : Memory} {a : Word} {n : Nat} (v : BitVec 64)
    {x : Word} (h : ∀ i < n, x ≠ a + BitVec.ofNat 32 i) : byteAt (memWrite e m a n v) x = byteAt m x := by
  unfold memWrite
  have key : ∀ l : List Nat, (∀ i ∈ l, i < n) → ∀ m : Memory, byteAt (l.foldl
      (fun acc i => setByte acc (a + BitVec.ofNat 32 i) (v.extractLsb' (8 * byteLane e n i) 8)) m) x =
      byteAt m x := by
    intro l hl
    induction l with
    | nil => intro m; rfl
    | cons i l ih =>
      intro m
      rw [List.foldl_cons, ih (fun j hj => hl j (by simp [hj])), byteAt_setByte,
        if_neg (h i (hl i (by simp)))]
  exact key _ (fun i hi => by simpa using hi) m

theorem reset_mem_wf : Memory.wf State.reset.mem = true := rfl

/-- The register file that `RESET` installs is in canonical form, whatever the reset values. -/
theorem regsReset_wf (cfg : Config) : Cells.wf (regsReset cfg) = true := by
  unfold regsReset
  rw [List.foldl_eq_foldr_reverse]
  induction cfg.reset.regs.reverse with
  | nil => rfl
  | cons e l ih => exact sparseWf_set ih _ _

/-- What `RESET` installs in a cell: the value of the last listed register with that index. -/
theorem regsReset_get (cfg : Config) (i : Nat) : sparseGet 0 (regsReset cfg) i =
    match cfg.reset.regs.reverse.find? (fun e => decide (cfg.index e.1 = i)) with
    | some e => e.2
    | none => 0 := by
  unfold regsReset
  rw [List.foldl_eq_foldr_reverse]
  induction cfg.reset.regs.reverse with
  | nil => rfl
  | cons e l ih =>
    rw [List.foldr_cons, sparseGet_set, ih, List.find?_cons]
    by_cases h : cfg.index e.1 = i
    · simp [h]
    · simp [h, Ne.symm h]

/-- The value that `RESET` installs in a named register, the registers being apart. -/
theorem regsReset_index {cfg : Config} (h : cfg.separate = true) (r : Reg) :
    sparseGet 0 (regsReset cfg) (cfg.index r) = cfg.resetValue r := by
  simp only [regsReset_get, index_inj h]
  rfl

theorem reset_regs_wf : Cells.wf State.reset.regs = true := by decide

end Sys2Proof.Machine
end

