-- ==== Sys2Proof/Laws/Bus.lean ====
section
/-! SUPPORT. The bus access: which accesses are refused, what a well-formed one does, and which meaning each
row of the dispatch table (43_regfile R295) has. -/
namespace Sys2Proof.Machine
open Sys2Proof

/-! ## Refusals -/

theorem busRefusal_outside {cfg : Config} {w : Width} {a : Word} (h : inWindow cfg a = false) :
    busRefusal cfg w a = some .outsideWindow := by
  simp [busRefusal, h]

theorem busRefusal_lane {cfg : Config} {w : Width} {a : Word} (h : inWindow cfg a = true) (h' : laneOk w a = false) :
    busRefusal cfg w a = some .misalignedLane := by
  simp [busRefusal, h, h']

theorem busRefusal_none {cfg : Config} {w : Width} {a : Word} (h : inWindow cfg a = true) (h' : laneOk w a = true) :
    busRefusal cfg w a = none := by
  simp [busRefusal, h, h']

theorem busRefusal_eq_none {cfg : Config} {w : Width} {a : Word} :
    busRefusal cfg w a = none ↔ inWindow cfg a = true ∧ laneOk w a = true := by
  unfold busRefusal
  cases inWindow cfg a <;> cases laneOk w a <;> simp

/-- What well-formedness of a bus operation says. -/
theorem wellFormed_iff {i : Instr} {b : BusAccess} (h : i.busAccess = some b) (cfg : Config) :
    i.wellFormed cfg = true ↔ inWindow cfg b.addr = true ∧ laneOk b.width b.addr = true ∧
      cfg.ofIndex (regIndex cfg b.addr) = b.target := by
  simp [Instr.wellFormed, h, BusAccess.wellFormed, BusAccess.windowOk, BusAccess.laneFits,
    BusAccess.indexFits, and_assoc]

/-- A well-formed bus operation is not refused by its access. -/
theorem busRefusal_of_wellFormed {cfg : Config} {i : Instr} {b : BusAccess} (h : i.busAccess = some b)
    (wf : i.wellFormed cfg = true) : busRefusal cfg b.width b.addr = none := by
  obtain ⟨h1, h2, -⟩ := (wellFormed_iff h cfg).1 wf
  exact busRefusal_none h1 h2

/-! ## Writes and reads that are not refused -/

theorem busWrite_of_none {s : State} {w : Width} {a : Word} (h : busRefusal s.cfg w a = none) (i : Nat) (d : Word)
    (f : State → State → Result) : busWrite i w a d f s = f s (storeMasked i w a d s) := by
  simp [busWrite, h]

theorem busWritePure_of_none {s : State} {w : Width} {a : Word} (h : busRefusal s.cfg w a = none) (i : Nat) (d : Word)
    (f : State → State → State) :
    busWritePure i w a d f s = .next (f s (storeMasked i w a d s)) := by
  simp [busWritePure, busWrite_of_none h]

theorem busWritePlain_of_none {s : State} {w : Width} {a : Word} (h : busRefusal s.cfg w a = none) (i : Nat)
    (d : Word) : busWritePlain i w a d s = .next (storeMasked i w a d s) := by
  simp [busWritePlain, busWritePure_of_none h]

theorem busWriteIgnored_of_none {s : State} {w : Width} {a : Word} (h : busRefusal s.cfg w a = none) :
    busWriteIgnored w a s = .next s := by
  simp [busWriteIgnored, h]

theorem busRead_of_none {s : State} {w : Width} {a : Word} (h : busRefusal s.cfg w a = none) (f : State → Word) :
    busRead w a f s = .next (s.emit (.readData (laneRead s.cfg.endian w a (f s)))) := by
  simp [busRead, h]

/-- If a write answers a state, it was not refused and its handler answered it. -/
theorem busWrite_next {i : Nat} {w : Width} {a d : Word} {f : State → State → Result} {s t : State}
    (h : busWrite i w a d f s = .next t) :
    busRefusal s.cfg w a = none ∧ f s (storeMasked i w a d s) = .next t := by
  unfold busWrite at h
  split at h
  · cases h
  · exact ⟨‹_›, h⟩

theorem busWritePure_next {i : Nat} {w : Width} {a d : Word} {f : State → State → State} {s t : State}
    (h : busWritePure i w a d f s = .next t) :
    busRefusal s.cfg w a = none ∧ t = f s (storeMasked i w a d s) := by
  obtain ⟨h1, h2⟩ := busWrite_next h
  exact ⟨h1, by simpa using h2.symm⟩

theorem busWritePlain_next {i : Nat} {w : Width} {a d : Word} {s t : State}
    (h : busWritePlain i w a d s = .next t) : busRefusal s.cfg w a = none ∧ t = storeMasked i w a d s :=
  busWritePure_next h

theorem busWriteIgnored_next {w : Width} {a : Word} {s t : State}
    (h : busWriteIgnored w a s = .next t) : busRefusal s.cfg w a = none ∧ t = s := by
  unfold busWriteIgnored at h
  split at h
  · cases h
  · exact ⟨‹_›, by simpa using h.symm⟩

theorem busRead_next {w : Width} {a : Word} {f : State → Word} {s t : State}
    (h : busRead w a f s = .next t) :
    busRefusal s.cfg w a = none ∧ t = s.emit (.readData (laneRead s.cfg.endian w a (f s))) := by
  unfold busRead at h
  split at h
  · cases h
  · exact ⟨‹_›, by simpa using h.symm⟩

theorem busWrite_refused {s : State} {w : Width} {a : Word} {e : Refusal} (h : busRefusal s.cfg w a = some e) (i : Nat)
    (d : Word) (f : State → State → Result) : busWrite i w a d f s = .refused e := by
  simp [busWrite, h]

theorem busWriteIgnored_refused {s : State} {w : Width} {a : Word} {e : Refusal} (h : busRefusal s.cfg w a = some e) :
    busWriteIgnored w a s = .refused e := by
  simp [busWriteIgnored, h]

theorem busRead_refused {s : State} {w : Width} {a : Word} {e : Refusal} (h : busRefusal s.cfg w a = some e)
    (f : State → Word) : busRead w a f s = .refused e := by
  simp [busRead, h]

/-! ## Every bus operation at once -/

/-- The handler of a named register's write (43_regfile R295). -/
def writeHandler (r : Reg) (old new : State) : Result :=
  match r with
  | .icr => .next (recompute new)
  | .ipr k => .next (priorityWritten k new)
  | .sar n | .dar n | .dmatcr n | .chcr n => checkChannel n new
  | .dmaor => checkAll (new.setReg .dmaor (dmaorKept (old.reg .dmaor) (new.reg .dmaor)))
  | .rtcsr => .next (rtcsrWritten old new)
  | .rtcnt => .next (rtcntWritten new)
  | .rtcor => .next (rtcorWritten new)
  | .rfcr => .next (rfcrWritten new)
  | .pctra => .next (pctraWritten new)
  | .pdtra => .next (gpioPush16 new)
  | .pctrb => .next (pctrbWritten new)
  | .pdtrb => .next (gpioPush4 new)
  | .rcr2 => .next (rcr2Written old new)
  | .tstr => .next (tstrWritten old new)
  | .tcnt n => .next (tcntWritten n new)
  | .tcr n => .next (tcrWritten n old new)
  | _ => .next new

/-- The value that a named register's read gives (43_regfile R295). -/
def readValue (r : Reg) (s : State) : Word :=
  match r with
  | .pvr => s.cfg.pvrValue
  | .prr | .rsvz => 0
  | .rtcnt => rtcntValue s
  | .pdtra => pdtraValue s
  | .pdtrb => pdtrbValue s
  | .tcnt n => tmuLive n s
  | r => s.reg r

/-- The meaning of a bus access (43_regfile R290). -/
def busMeaning (b : BusAccess) (s : State) : Result :=
  match b.write, b.target with
  | false, none => busRead b.width b.addr (fun s => s.cell (regIndex s.cfg b.addr)) s
  | false, some r => busRead b.width b.addr (readValue r) s
  | true, none =>
    busWrite (regIndex s.cfg b.addr) b.width b.addr b.data
      (fun _ new => .next (new.emitDiag (.unknownRegisterWrite b.addr))) s
  | true, some .pvr | true, some .prr | true, some .rsvz => busWriteIgnored b.width b.addr s
  | true, some r => busWrite (s.cfg.index r) b.width b.addr b.data (writeHandler r) s

/-- Every bus operation does what its access says: the 114 of them are the registers' rows. -/
theorem exec_busAccess {i : Instr} {b : BusAccess} (h : i.busAccess = some b) (s : State) :
    exec i s = busMeaning b s := by
  cases i <;> first | (cases h; done) | (cases h; rfl)

/-- What a bus operation that answers a state did: a read emitted a value; a default write stored and logged;
a write of a hard-wired register did nothing; any other write stored and ran the register's handler. -/
theorem busAccess_next {i : Instr} {b : BusAccess} (h : i.busAccess = some b) {s t : State}
    (hx : exec i s = .next t) :
    (b.write = false ∧ ∃ v, t = s.emit (.readData v)) ∨
    (b.write = true ∧ b.target = none ∧
      t = (storeMasked (regIndex s.cfg b.addr) b.width b.addr b.data s).emitDiag (.unknownRegisterWrite b.addr)) ∨
    (b.write = true ∧ (b.target = some .pvr ∨ b.target = some .prr ∨ b.target = some .rsvz) ∧ t = s) ∨
    (b.write = true ∧ ∃ r, b.target = some r ∧ r ≠ .pvr ∧ r ≠ .prr ∧ r ≠ .rsvz ∧
      writeHandler r s (storeMasked (s.cfg.index r) b.width b.addr b.data s) = .next t) := by
  rw [exec_busAccess h] at hx
  unfold busMeaning at hx
  split at hx
  · exact .inl ⟨‹_›, _, (busRead_next hx).2⟩
  · exact .inl ⟨‹_›, _, (busRead_next hx).2⟩
  · exact .inr (.inl ⟨‹_›, ‹_›, (by simpa using (busWrite_next hx).2.symm)⟩)
  · exact .inr (.inr (.inl ⟨‹_›, .inl ‹_›, (busWriteIgnored_next hx).2⟩))
  · exact .inr (.inr (.inl ⟨‹_›, .inr (.inl ‹_›), (busWriteIgnored_next hx).2⟩))
  · exact .inr (.inr (.inl ⟨‹_›, .inr (.inr ‹_›), (busWriteIgnored_next hx).2⟩))
  · rename_i r h1 h2 h3 hw ht
    exact .inr (.inr (.inr ⟨hw, r, ht, h1, h2, h3, (busWrite_next hx).2⟩))

/-! ## The rows of the dispatch table -/

theorem exec_plainWrite {p : WriteOp × Reg} (hp : p ∈ plainWrites) (w : Width) (a d : Word) (s : State) :
    exec (p.1 w a d) s = busWritePlain (s.cfg.index p.2) w a d s := by
  revert p
  simp only [plainWrites, List.forall_mem_cons]
  repeat' constructor
  all_goals simp

theorem busAccess_plainWrite {p : WriteOp × Reg} (hp : p ∈ plainWrites) (w : Width) (a d : Word) :
    (p.1 w a d).busAccess = some ⟨true, some p.2, w, a, d⟩ := by
  revert p
  simp only [plainWrites, List.forall_mem_cons]
  repeat' constructor
  all_goals simp

/-- A well-formed operation of this row is not refused. -/
theorem plainWrite_none {cfg : Config} {p : WriteOp × Reg} (hp : p ∈ plainWrites) {w : Width} {a d : Word}
    (wf : (p.1 w a d).wellFormed cfg = true) : busRefusal cfg w a = none :=
  busRefusal_of_wellFormed (busAccess_plainWrite hp w a d) wf

theorem exec_plainRead {p : ReadOp × Reg} (hp : p ∈ plainReads) (w : Width) (a : Word) (s : State) :
    exec (p.1 w a) s = busRead w a (fun s => s.reg p.2) s := by
  revert p
  simp only [plainReads, List.forall_mem_cons]
  repeat' constructor
  all_goals simp

theorem busAccess_plainRead {p : ReadOp × Reg} (hp : p ∈ plainReads) (w : Width) (a : Word) :
    (p.1 w a).busAccess = some ⟨false, some p.2, w, a, 0⟩ := by
  revert p
  simp only [plainReads, List.forall_mem_cons]
  repeat' constructor
  all_goals simp

/-- A well-formed operation of this row is not refused. -/
theorem plainRead_none {cfg : Config} {p : ReadOp × Reg} (hp : p ∈ plainReads) {w : Width} {a : Word}
    (wf : (p.1 w a).wellFormed cfg = true) : busRefusal cfg w a = none :=
  busRefusal_of_wellFormed (busAccess_plainRead hp w a) wf

theorem exec_channelWrite {p : WriteOp × Reg × Chan} (hp : p ∈ channelWrites) (w : Width) (a d : Word) (s : State) :
    exec (p.1 w a d) s = busWrite (s.cfg.index p.2.1) w a d (fun _ new => checkChannel p.2.2 new) s := by
  revert p
  simp only [channelWrites, List.forall_mem_cons]
  repeat' constructor
  all_goals simp

theorem busAccess_channelWrite {p : WriteOp × Reg × Chan} (hp : p ∈ channelWrites) (w : Width) (a d : Word) :
    (p.1 w a d).busAccess = some ⟨true, some p.2.1, w, a, d⟩ := by
  revert p
  simp only [channelWrites, List.forall_mem_cons]
  repeat' constructor
  all_goals simp

/-- A well-formed operation of this row is not refused. -/
theorem channelWrite_none {cfg : Config} {p : WriteOp × Reg × Chan} (hp : p ∈ channelWrites) {w : Width}
    {a d : Word}
    (wf : (p.1 w a d).wellFormed cfg = true) : busRefusal cfg w a = none :=
  busRefusal_of_wellFormed (busAccess_channelWrite hp w a d) wf

theorem exec_priorityWrite {p : WriteOp × Fin 4} (hp : p ∈ priorityWrites) (w : Width) (a d : Word) (s : State) :
    exec (p.1 w a d) s = busWritePure (s.cfg.index (.ipr p.2)) w a d (fun _ new => priorityWritten p.2 new) s := by
  revert p
  simp only [priorityWrites, List.forall_mem_cons]
  repeat' constructor
  all_goals simp

theorem busAccess_priorityWrite {p : WriteOp × Fin 4} (hp : p ∈ priorityWrites) (w : Width) (a d : Word) :
    (p.1 w a d).busAccess = some ⟨true, some (.ipr p.2), w, a, d⟩ := by
  revert p
  simp only [priorityWrites, List.forall_mem_cons]
  repeat' constructor
  all_goals simp

/-- A well-formed operation of this row is not refused. -/
theorem priorityWrite_none {cfg : Config} {p : WriteOp × Fin 4} (hp : p ∈ priorityWrites) {w : Width} {a d : Word}
    (wf : (p.1 w a d).wellFormed cfg = true) : busRefusal cfg w a = none :=
  busRefusal_of_wellFormed (busAccess_priorityWrite hp w a d) wf

theorem exec_ignoredWrite {p : WriteOp} (hp : p ∈ ignoredWrites) (w : Width) (a d : Word) (s : State) :
    exec (p w a d) s = busWriteIgnored w a s := by
  revert p
  simp only [ignoredWrites, List.forall_mem_cons]
  repeat' constructor
  all_goals simp

theorem busAccess_ignoredWrite {p : WriteOp} (hp : p ∈ ignoredWrites) (w : Width) (a d : Word) :
    ∃ r, (p w a d).busAccess = some ⟨true, some r, w, a, d⟩ := by
  revert p
  simp only [ignoredWrites, List.forall_mem_cons]
  exact ⟨⟨_, rfl⟩, ⟨_, rfl⟩, ⟨_, rfl⟩, by simp⟩

/-- A well-formed operation of this row is not refused. -/
theorem ignoredWrite_none {cfg : Config} {p : WriteOp} (hp : p ∈ ignoredWrites) {w : Width} {a d : Word}
    (wf : (p w a d).wellFormed cfg = true) : busRefusal cfg w a = none := by
  obtain ⟨r, hr⟩ := busAccess_ignoredWrite hp w a d
  exact busRefusal_of_wellFormed hr wf

theorem exec_zeroRead {p : ReadOp} (hp : p ∈ zeroReads) (w : Width) (a : Word) (s : State) :
    exec (p w a) s = busRead w a (fun _ => 0) s := by
  revert p
  simp only [zeroReads, List.forall_mem_cons]
  repeat' constructor
  all_goals simp

theorem busAccess_zeroRead {p : ReadOp} (hp : p ∈ zeroReads) (w : Width) (a : Word) :
    ∃ r, (p w a).busAccess = some ⟨false, some r, w, a, 0⟩ := by
  revert p
  simp only [zeroReads, List.forall_mem_cons]
  exact ⟨⟨_, rfl⟩, ⟨_, rfl⟩, by simp⟩

/-- A well-formed operation of this row is not refused. -/
theorem zeroRead_none {cfg : Config} {p : ReadOp} (hp : p ∈ zeroReads) {w : Width} {a : Word}
    (wf : (p w a).wellFormed cfg = true) : busRefusal cfg w a = none := by
  obtain ⟨r, hr⟩ := busAccess_zeroRead hp w a
  exact busRefusal_of_wellFormed hr wf

theorem exec_countWrite {p : WriteOp × TmuChan} (hp : p ∈ countWrites) (w : Width) (a d : Word) (s : State) :
    exec (p.1 w a d) s = busWritePure (s.cfg.index (.tcnt p.2)) w a d (fun _ new => tcntWritten p.2 new) s := by
  revert p
  simp only [countWrites, List.forall_mem_cons]
  repeat' constructor
  all_goals simp

theorem busAccess_countWrite {p : WriteOp × TmuChan} (hp : p ∈ countWrites) (w : Width) (a d : Word) :
    (p.1 w a d).busAccess = some ⟨true, some (.tcnt p.2), w, a, d⟩ := by
  revert p
  simp only [countWrites, List.forall_mem_cons]
  repeat' constructor
  all_goals simp

/-- A well-formed operation of this row is not refused. -/
theorem countWrite_none {cfg : Config} {p : WriteOp × TmuChan} (hp : p ∈ countWrites) {w : Width} {a d : Word}
    (wf : (p.1 w a d).wellFormed cfg = true) : busRefusal cfg w a = none :=
  busRefusal_of_wellFormed (busAccess_countWrite hp w a d) wf

theorem exec_countRead {p : ReadOp × TmuChan} (hp : p ∈ countReads) (w : Width) (a : Word) (s : State) :
    exec (p.1 w a) s = busRead w a (tmuLive p.2) s := by
  revert p
  simp only [countReads, List.forall_mem_cons]
  repeat' constructor
  all_goals simp

theorem busAccess_countRead {p : ReadOp × TmuChan} (hp : p ∈ countReads) (w : Width) (a : Word) :
    (p.1 w a).busAccess = some ⟨false, some (.tcnt p.2), w, a, 0⟩ := by
  revert p
  simp only [countReads, List.forall_mem_cons]
  repeat' constructor
  all_goals simp

/-- A well-formed operation of this row is not refused. -/
theorem countRead_none {cfg : Config} {p : ReadOp × TmuChan} (hp : p ∈ countReads) {w : Width} {a : Word}
    (wf : (p.1 w a).wellFormed cfg = true) : busRefusal cfg w a = none :=
  busRefusal_of_wellFormed (busAccess_countRead hp w a) wf

theorem exec_controlWrite {p : WriteOp × TmuChan} (hp : p ∈ controlWrites) (w : Width) (a d : Word) (s : State) :
    exec (p.1 w a d) s = busWritePure (s.cfg.index (.tcr p.2)) w a d (fun old new => tcrWritten p.2 old new) s := by
  revert p
  simp only [controlWrites, List.forall_mem_cons]
  repeat' constructor
  all_goals simp

theorem busAccess_controlWrite {p : WriteOp × TmuChan} (hp : p ∈ controlWrites) (w : Width) (a d : Word) :
    (p.1 w a d).busAccess = some ⟨true, some (.tcr p.2), w, a, d⟩ := by
  revert p
  simp only [controlWrites, List.forall_mem_cons]
  repeat' constructor
  all_goals simp

/-- A well-formed operation of this row is not refused. -/
theorem controlWrite_none {cfg : Config} {p : WriteOp × TmuChan} (hp : p ∈ controlWrites) {w : Width} {a d : Word}
    (wf : (p.1 w a d).wellFormed cfg = true) : busRefusal cfg w a = none :=
  busRefusal_of_wellFormed (busAccess_controlWrite hp w a d) wf

end Sys2Proof.Machine
end

