-- ==== Sys2Proof/Laws/Intc.lean ====
section
/-! SUPPORT. The interrupt controller's operations, each said once: the test flag, request and unrequest, the
selection, taking an exception. -/
namespace Sys2Proof.Machine
open Sys2Proof

theorem mem_allSources (x : Source) : x ∈ allSources := List.mem_finRange x

theorem anyRequesting_iff {i : Intc} : anyRequesting i = true ↔ ∃ x : Source, i.requesting[x] = true := by
  simp [anyRequesting, mem_allSources]

theorem srImask_eq (s : State) : srImask s = (field s.cpu.sr s.cfg.srImask 4).toNat := rfl

/-- `TestFn`, computed, is the proposition that the spec writes (40_intc R146). -/
theorem testFn_iff {s : State} : testFn s = true ↔ Passing s := by
  have hx : ∀ x : Source, (x = srcNmi ↔ x.val = 16) := fun x => by
    rw [Fin.ext_iff]; rfl
  simp only [testFn, Passing, Bool.and_eq_true, List.any_eq_true, mem_allSources, true_and, exceeds,
    allowed, decide_eq_true_eq, Bool.or_eq_true, Bool.not_eq_true', hx, and_assoc]
  rfl

/-! ## Recompute -/

@[simp] theorem recompute_cpu (s : State) : (recompute s).cpu = s.cpu := rfl
@[simp] theorem recompute_regs (s : State) : (recompute s).regs = s.regs := rfl
@[simp] theorem recompute_reg (s : State) (r : Reg) : (recompute s).reg r = s.reg r := rfl
@[simp] theorem recompute_cell (s : State) (i : Nat) : (recompute s).cell i = s.cell i := rfl
@[simp] theorem recompute_outputs (s : State) : (recompute s).outputs = s.outputs := rfl

theorem recompute_eq (s : State) : recompute s = { s with intc := { s.intc with test := testFn s } } := rfl

/-- `TestFn` does not look at the test flag. -/
theorem passing_congr {s t : State} (hg : t.cfg = s.cfg) (hc : t.cpu.sr = s.cpu.sr)
    (hr : t.intc.requesting = s.intc.requesting)
    (hp : t.intc.pending = s.intc.pending) (hq : t.intc.prio = s.intc.prio)
    (hi : t.reg .icr = s.reg .icr) : Passing t ↔ Passing s := by
  unfold Passing
  rw [hg, hc, hr, hp, hq, hi]

theorem recompute_passing (s : State) : Passing (recompute s) ↔ Passing s :=
  passing_congr rfl rfl rfl rfl rfl rfl

/-- After `RECOMPUTE` the test flag is fresh. -/
theorem recompute_fresh (s : State) : FreshTest (recompute s) := by
  unfold FreshTest
  rw [recompute_passing, ← testFn_iff]; rfl

theorem freshTest_congr {s t : State} (hg : t.cfg = s.cfg) (hi : t.intc = s.intc) (hc : t.cpu.sr = s.cpu.sr)
    (hr : t.reg .icr = s.reg .icr) : FreshTest t ↔ FreshTest s := by
  unfold FreshTest
  rw [passing_congr hg hc (by rw [hi]) (by rw [hi]) (by rw [hi]) hr, hi]

/-! ## Request and unrequest -/

theorem requesting_set (v : Vector Bool 64) (x y : Source) (b : Bool) :
    (v.set x b)[y] = if y = x then b else v[y] := by
  by_cases h : y = x
  · subst h; simp
  · have : (x : Nat) ≠ y := fun e => h (Fin.ext e.symm)
    simp [h, this]

theorem requestSource_of_requesting {x : Source} {s : State} (h : s.intc.requesting[x] = true) :
    requestSource x s = s := if_pos h

theorem requestSource_of_idle {x : Source} {s : State} (h : s.intc.requesting[x] = false) :
    requestSource x s =
      recompute (s.setIntc { s.intc with requesting := s.intc.requesting.set x true, pending := true }) := by
  simp [requestSource, h]

theorem unrequestSource_of_idle {x : Source} {s : State} (h : s.intc.requesting[x] = false) :
    unrequestSource x s = s := by
  simp [unrequestSource, h]

theorem unrequestSource_of_requesting {x : Source} {s : State} (h : s.intc.requesting[x] = true) :
    unrequestSource x s = recompute (s.setIntc (s.intc.withdraw x)) := by
  simp [unrequestSource, h]

/-- All that `REQUEST` can do: the controller's state alone changes. -/
theorem requestSource_eq (x : Source) (s : State) :
    requestSource x s = s.setIntc (requestSource x s).intc := by
  unfold requestSource; split <;> rfl

/-- All that `UNREQUEST` can do: the controller's state alone changes. -/
theorem unrequestSource_eq (x : Source) (s : State) :
    unrequestSource x s = s.setIntc (unrequestSource x s).intc := by
  unfold unrequestSource; split <;> rfl

theorem requestSource_requesting (x y : Source) (s : State) :
    (requestSource x s).intc.requesting[y] = (decide (y = x) || s.intc.requesting[y]) := by
  by_cases h : s.intc.requesting[x] = true
  · rw [requestSource_of_requesting h]
    by_cases hy : y = x
    · subst hy; simp [h]
    · simp [hy]
  · rw [Bool.not_eq_true] at h
    rw [requestSource_of_idle h]
    show (s.intc.requesting.set x true)[y] = _
    rw [requesting_set]
    by_cases hy : y = x <;> simp [hy]

theorem unrequestSource_requesting (x y : Source) (s : State) :
    (unrequestSource x s).intc.requesting[y] = (!decide (y = x) && s.intc.requesting[y]) := by
  by_cases h : s.intc.requesting[x] = true
  · rw [unrequestSource_of_requesting h]
    show (s.intc.requesting.set x false)[y] = _
    rw [requesting_set]
    by_cases hy : y = x <;> simp [hy]
  · rw [Bool.not_eq_true] at h
    rw [unrequestSource_of_idle h]
    by_cases hy : y = x
    · subst hy; simp [h]
    · simp [hy]

/-- The parts of the controller that `REQUEST` leaves. -/
theorem requestSource_intc (x : Source) (s : State) :
    (requestSource x s).intc = { s.intc with
      requesting := (requestSource x s).intc.requesting
      pending := (requestSource x s).intc.pending
      test := (requestSource x s).intc.test } := by
  unfold requestSource; split <;> rfl

/-- The parts of the controller that `UNREQUEST` leaves. -/
theorem unrequestSource_intc (x : Source) (s : State) :
    (unrequestSource x s).intc = { s.intc with
      requesting := (unrequestSource x s).intc.requesting
      pending := (unrequestSource x s).intc.pending
      test := (unrequestSource x s).intc.test } := by
  unfold unrequestSource; split <;> rfl

theorem requestSource_fresh {x : Source} {s : State} (h : FreshTest s ∨ s.intc.requesting[x] = false) :
    FreshTest (requestSource x s) := by
  by_cases hx : s.intc.requesting[x] = true
  · rw [requestSource_of_requesting hx]
    rcases h with h | h
    · exact h
    · rw [hx] at h; cases h
  · rw [Bool.not_eq_true] at hx
    rw [requestSource_of_idle hx]
    exact recompute_fresh _

theorem unrequestSource_fresh {x : Source} {s : State} (h : FreshTest s ∨ s.intc.requesting[x] = true) :
    FreshTest (unrequestSource x s) := by
  by_cases hx : s.intc.requesting[x] = true
  · rw [unrequestSource_of_requesting hx]
    exact recompute_fresh _
  · rw [Bool.not_eq_true] at hx
    rw [unrequestSource_of_idle hx]
    rcases h with h | h
    · exact h
    · rw [hx] at h; cases h

theorem requestSource_pending {x : Source} {s : State} (h : s.intc.pending = anyRequesting s.intc) :
    (requestSource x s).intc.pending = anyRequesting (requestSource x s).intc := by
  by_cases hx : s.intc.requesting[x] = true
  · rwa [requestSource_of_requesting hx]
  · rw [Bool.not_eq_true] at hx
    have : anyRequesting (requestSource x s).intc = true :=
      anyRequesting_iff.2 ⟨x, by rw [requestSource_requesting]; simp⟩
    rw [this, requestSource_of_idle hx]; rfl

theorem unrequestSource_pending {x : Source} {s : State} (h : s.intc.pending = anyRequesting s.intc) :
    (unrequestSource x s).intc.pending = anyRequesting (unrequestSource x s).intc := by
  unfold unrequestSource
  split
  · rfl
  · exact h

/-! ## The selection -/

theorem outranks_or (s : State) (a b : Source) : Outranks s a b ∨ a = b ∨ Outranks s b a := by
  unfold Outranks
  rcases Nat.lt_trichotomy (rank s a) (rank s b) with h | h | h
  · exact .inr (.inr (.inl h))
  · rcases Nat.lt_trichotomy a.val b.val with h' | h' | h'
    · exact .inr (.inr (.inr ⟨h.symm, h'⟩))
    · exact .inr (.inl (Fin.ext h'))
    · exact .inl (.inr ⟨h, h'⟩)
  · exact .inl (.inl h)

theorem outranks_asymm {s : State} {a b : Source} (h : Outranks s a b) : ¬Outranks s b a := by
  unfold Outranks at *; omega

theorem outranks_trans {s : State} {a b c : Source} (h : Outranks s a b) (h' : Outranks s b c) :
    Outranks s a c := by
  unfold Outranks at *; omega

theorem better_iff {s : State} {a b : Source} : better s a b = true ↔ a = b ∨ Outranks s b a := by
  unfold better Outranks
  simp only [Bool.or_eq_true, decide_eq_true_eq, Bool.and_eq_true, Fin.ext_iff]
  constructor
  · rintro (h | ⟨h, h'⟩)
    · exact .inr (.inl h)
    · rcases Nat.lt_or_ge a.val b.val with h2 | h2
      · exact .inr (.inr ⟨h.symm, h2⟩)
      · exact .inl (by omega)
  · rintro (h | h | ⟨h, h'⟩)
    · right
      have : a = b := Fin.ext h
      subst this; exact ⟨rfl, le_rfl⟩
    · exact .inl h
    · exact .inr ⟨h.symm, by omega⟩

/-- `SELECT` returns the requesting source that outranks every other requesting one (40_intc R156). -/
theorem select_spec (s : State) :
    match select s with
    | none => ∀ y : Source, s.intc.requesting[y] = false
    | some x => s.intc.requesting[x] = true ∧
        ∀ y : Source, s.intc.requesting[y] = true → y ≠ x → Outranks s x y := by
  have key : ∀ (l : List Source) (seen : List Source) (best : Option Source),
      (match best with
        | none => ∀ y ∈ seen, s.intc.requesting[y] = false
        | some x => s.intc.requesting[x] = true ∧
            ∀ y ∈ seen, s.intc.requesting[y] = true → y ≠ x → Outranks s x y) →
      match l.foldl (fun best src =>
          if s.intc.requesting[src] then
            match best with
            | none => some src
            | some b => if better s b src then some src else some b
          else best) best with
      | none => ∀ y ∈ seen ++ l, s.intc.requesting[y] = false
      | some x => s.intc.requesting[x] = true ∧
          ∀ y ∈ seen ++ l, s.intc.requesting[y] = true → y ≠ x → Outranks s x y := by
    intro l
    induction l with
    | nil => intro seen best h; simpa using h
    | cons z l ih =>
      intro seen best h
      have e : seen ++ z :: l = (seen ++ [z]) ++ l := by simp
      rw [List.foldl_cons, e]
      apply ih
      by_cases hz : s.intc.requesting[z] = true
      · rw [if_pos hz]
        cases best with
        | none =>
          refine ⟨hz, fun y hy hr hne => ?_⟩
          rcases List.mem_append.1 hy with hy | hy
          · rw [h y hy] at hr; cases hr
          · exact absurd (by simpa using hy) hne
        | some b =>
          obtain ⟨hb, hall⟩ := h
          by_cases hbz : better s b z = true
          · simp only [hbz, if_true]
            refine ⟨hz, fun y hy hr hne => ?_⟩
            rcases List.mem_append.1 hy with hy | hy
            · by_cases hyb : y = b
              · subst hyb
                rcases better_iff.1 hbz with h1 | h1
                · exact absurd h1 hne
                · exact h1
              · rcases better_iff.1 hbz with h1 | h1
                · rw [← h1]; exact hall y hy hr hyb
                · exact outranks_trans h1 (hall y hy hr hyb)
            · exact absurd (by simpa using hy) hne
          · simp only [hbz]
            refine ⟨hb, fun y hy hr hne => ?_⟩
            rcases List.mem_append.1 hy with hy | hy
            · exact hall y hy hr hne
            · have : y = z := by simpa using hy
              subst this
              rcases outranks_or s b y with h1 | h1 | h1
              · exact h1
              · exact absurd h1.symm hne
              · exact absurd (better_iff.2 (.inr h1)) hbz
      · rw [if_neg hz]
        rw [Bool.not_eq_true] at hz
        cases best with
        | none =>
          intro y hy
          rcases List.mem_append.1 hy with hy | hy
          · exact h y hy
          · have : y = z := by simpa using hy
            rw [this]; exact hz
        | some b =>
          refine ⟨h.1, fun y hy hr hne => ?_⟩
          rcases List.mem_append.1 hy with hy | hy
          · exact h.2 y hy hr hne
          · have : y = z := by simpa using hy
            rw [this, hz] at hr; cases hr
  have := key allSources [] none (by simp)
  simp only [List.nil_append, mem_allSources, forall_true_left] at this
  exact this

/-! ## Taking an exception -/

theorem raiseAccepts_iff {x : Source} {s : State} : raiseAccepts x s = true ↔ Accepts s x := by
  have hx : x = srcNmi ↔ x.val = 16 := by rw [Fin.ext_iff]; rfl
  unfold raiseAccepts Accepts
  by_cases h : x = srcNmi
  · rw [if_pos h, if_pos (hx.1 h)]
    simp only [srBl, icrNmib, Bool.not_eq_true', Bool.and_eq_false_iff, Bool.not_eq_false']
    cases bit s.cpu.sr s.cfg.srBl <;> cases bit (s.reg .icr) 9 <;> simp
  · rw [if_neg h, if_neg (fun e => h (hx.2 e))]
    simp only [exceeds, Bool.and_eq_true, Bool.not_eq_true', decide_eq_true_eq]
    rfl

theorem raiseSource_declined {x : Source} {s : State} (h : ¬Accepts s x) : raiseSource x s = s := by
  have : raiseAccepts x s = false := by rw [← Bool.not_eq_true, raiseAccepts_iff]; exact h
  simp [raiseSource, this]

theorem bit_putBit_true (v : Word) (i j : Nat) (hi : i < 32) :
    bit (putBit v i true) j = (decide (j = i) || bit v j) := by
  unfold bit putBit
  rw [if_pos rfl, BitVec.getLsbD_or, BitVec.getLsbD_shiftLeft]
  rcases Nat.lt_trichotomy j i with h | h | h
  · simp [h, Nat.ne_of_lt h]
  · subst h; simp [hi]
  · have : ¬ j < i := by omega
    have h1 : j - i ≠ 0 := by omega
    simp [Nat.ne_of_gt h, BitVec.getLsbD_one, h1]

theorem bit_putBit_false (v : Word) (i j : Nat) :
    bit (putBit v i false) j = (!decide (j = i) && bit v j) := by
  unfold bit putBit
  simp only [Bool.false_eq_true, if_false, BitVec.getLsbD_and, BitVec.getLsbD_not,
    BitVec.getLsbD_shiftLeft]
  by_cases hj : j < 32
  · by_cases h : j = i
    · subst h; simp [hj]
    · have : (decide (j < i) || !decide (j - i = 0)) = true := by
        simp only [Bool.or_eq_true, decide_eq_true_eq, Bool.not_eq_true', decide_eq_false_iff_not]
        omega
      simp [hj, h]
      omega
  · have : v.getLsbD j = false := BitVec.getLsbD_of_ge v j (by omega)
    simp [this]

/-- `MD`, `RB` and `BL` are set, every other bit kept. -/
theorem bit_srEntered (cfg : Config) (v : Word) (j : Nat) :
    bit (srEntered cfg v) j =
      (decide (j = cfg.srMd.val ∨ j = cfg.srRb.val ∨ j = cfg.srBl.val) || bit v j) := by
  unfold srEntered
  rw [bit_putBit_true _ _ _ cfg.srBl.isLt, bit_putBit_true _ _ _ cfg.srRb.isLt,
    bit_putBit_true _ _ _ cfg.srMd.isLt]
  by_cases h1 : j = cfg.srMd.val <;> by_cases h2 : j = cfg.srRb.val <;> by_cases h3 : j = cfg.srBl.val <;>
    simp [h1, h2, h3]

theorem bit_putBit (v : Word) (i : Fin 32) (b : Bool) (j : Nat) :
    bit (putBit v i b) j = if j = i.val then b else bit v j := by
  cases b
  · rw [bit_putBit_false]; by_cases h : j = i.val <;> simp [h]
  · rw [bit_putBit_true _ _ _ i.isLt]; by_cases h : j = i.val <;> simp [h]

theorem bit_putField (v : Word) (lo : Fin 29) (x : BitVec 4) (j : Nat) :
    bit (putField v lo x) j = if lo.val ≤ j ∧ j < lo.val + 4 then x.getLsbD (j - lo.val) else bit v j := by
  have hlo := lo.isLt
  unfold bit putField
  simp only [BitVec.getLsbD_or, BitVec.getLsbD_and, BitVec.getLsbD_not, BitVec.getLsbD_shiftLeft,
    BitVec.getLsbD_setWidth, BitVec.getLsbD_allOnes]
  by_cases h1 : lo.val ≤ j
  · by_cases h2 : j < lo.val + 4
    · have : j < 32 := by omega
      have h3 : j - lo.val < 4 := by omega
      have h4 : ¬j < lo.val := by omega
      have h5 : j - lo.val < 32 := by omega
      simp [this, h1, h2, h3, h4, h5]
    · have h3 : ¬j - lo.val < 4 := by omega
      have h4 : x.getLsbD (j - lo.val) = false := BitVec.getLsbD_of_ge _ _ (by omega)
      by_cases h5 : j < 32
      · simp [h1, h2, h3, h4, h5]
      · have : v.getLsbD j = false := BitVec.getLsbD_of_ge _ _ (by omega)
        simp [this, h2, h4]
  · have h4 : j < lo.val := by omega
    have h5 : j < 32 := by omega
    simp [h1, h4, h5]

/-- The status register right after reset, bit by bit (10_state R22). -/
theorem bit_srReset (cfg : Config) (v : Word) (j : Nat) :
    bit (srReset cfg v) j =
      if cfg.srImask.val ≤ j ∧ j < cfg.srImask.val + 4 then cfg.reset.imask.getLsbD (j - cfg.srImask.val)
      else if j = cfg.srBl.val then cfg.reset.bl
      else if j = cfg.srRb.val then cfg.reset.rb
      else if j = cfg.srMd.val then cfg.reset.md
      else bit v j := by
  simp only [srReset, bit_putField, bit_putBit]

theorem unrequestSource_setIntc (x : Source) (s : State) : ∃ i, unrequestSource x s = s.setIntc i :=
  ⟨_, unrequestSource_eq x s⟩

theorem unrequestSource_intc_congr {x : Source} {s s' : State} (h : s.intc = s'.intc) (b : Bool) :
    { (unrequestSource x s).intc with test := b } = { (unrequestSource x s').intc with test := b } := by
  unfold unrequestSource
  rw [h]
  split
  · rfl
  · rw [h]

/-- What an accepted `RAISE` does: the auto-clear where the source is one of the five, and the rest. -/
theorem raiseSource_accepted {x : Source} {s : State} (h : Accepts s x) :
    ∃ i, raiseSource x s = { s with
      regs := (s.setReg .intevt (s.cfg.evtCode.getD x.val 0)).regs
      outputs := s.outputs ++ [.irqAck (s.cfg.ackArg.getD x.val 0),
        .diag (if x.val = 16 then .nmiRaised x else .irqRaised x)]
      intc := i
      cpu := { s.cpu with
        spc := s.cpu.pc, ssr := s.cpu.sr, sgr := s.cpu.r15, sr := srEntered s.cfg s.cpu.sr
        pc := s.cpu.vbr + s.cfg.vecOffset.getD x.val 0
        sleep := if s.cpu.sleep = .sleeping then .wakePending else s.cpu.sleep } } ∧
    FreshTest (raiseSource x s) ∧
    i = { (if autoCleared x then (unrequestSource x s).intc else s.intc) with test := i.test } := by
  have hacc : raiseAccepts x s = true := raiseAccepts_iff.2 h
  have hx : (if x = srcNmi then Diag.nmiRaised x else .irqRaised x) =
      (if x.val = 16 then .nmiRaised x else .irqRaised x) := by
    have : x = srcNmi ↔ x.val = 16 := by rw [Fin.ext_iff]; rfl
    simp only [this]
  have hr : raiseSource x s =
      let s3 := ((s.setReg .intevt (s.cfg.evtCode.getD x.val 0)).emit (.irqAck (s.cfg.ackArg.getD x.val 0))).emitDiag
        (if x.val = 16 then .nmiRaised x else .irqRaised x)
      let s4 := if autoCleared x then unrequestSource x s3 else s3
      let s6 := recompute (s4.setCpu (s4.cpu.entered s4.cfg))
      s6.setCpu (s6.cpu.vectored (s.cfg.vecOffset.getD x.val 0)) := by
    unfold raiseSource
    rw [if_neg (by simp [hacc]), hx]
  rw [hr]
  dsimp only
  generalize hs3 : ((s.setReg .intevt (s.cfg.evtCode.getD x.val 0)).emit
    (.irqAck (s.cfg.ackArg.getD x.val 0))).emitDiag
      (if x.val = 16 then .nmiRaised x else .irqRaised x) = s3
  have h3 : s3.intc = s.intc := by rw [← hs3]; rfl
  obtain ⟨j, hj, hj'⟩ : ∃ j, (if autoCleared x then unrequestSource x s3 else s3) = s3.setIntc j ∧
      ∀ b, { j with test := b } =
        { (if autoCleared x then (unrequestSource x s).intc else s.intc) with test := b } := by
    by_cases hc : autoCleared x = true
    · refine ⟨(unrequestSource x s3).intc, ?_, fun b => ?_⟩
      · rw [if_pos hc]; exact unrequestSource_eq x s3
      · rw [if_pos hc]; exact unrequestSource_intc_congr h3 b
    · exact ⟨s3.intc, by rw [if_neg hc]; rfl, fun b => by rw [if_neg hc, h3]⟩
  rw [hj]
  refine ⟨(recompute ((s3.setIntc j).setCpu ((s3.setIntc j).cpu.entered (s3.setIntc j).cfg))).intc, ?_, ?_, ?_⟩
  · rw [← hs3]
    simp only [State.emitDiag, State.emit, List.append_assoc, List.cons_append, List.nil_append]
    rfl
  · exact (freshTest_congr rfl rfl rfl rfl).2 (recompute_fresh _)
  · exact (hj' _).symm ▸ rfl

/-- The sources that a dispatch clears: NMI and the four DMA completions. -/
theorem autoCleared_iff (x : Source) : autoCleared x = decide (x.val ∈ [16, 44, 45, 46, 47]) := by
  revert x; decide

/-- Withdrawing the sources of the combined line one by one: which sources still request, and when the flags
are recomputed. -/
theorem unrequestIrll_foldl (l : List (Fin 15)) : ∀ s : State, ∃ i, l.foldl (fun s k => unrequestSource (srcIrll k) s) s = s.setIntc i ∧
    i = { s.intc with requesting := i.requesting, pending := i.pending, test := i.test } ∧
    (∀ y : Source, i.requesting[y] = (!(l.any fun k => decide (y = srcIrll k)) && s.intc.requesting[y])) ∧
    ((∀ k ∈ l, s.intc.requesting[srcIrll k] = false) → i = s.intc) ∧
    ((∃ k ∈ l, s.intc.requesting[srcIrll k] = true) → i.pending = anyRequesting i ∧ FreshTest (s.setIntc i)) := by
  induction l with
  | nil => intro s; exact ⟨s.intc, rfl, rfl, by simp, fun _ => rfl, by simp⟩
  | cons k l ih =>
    intro s
    obtain ⟨i, h1, h2, h3, h4, h5⟩ := ih (unrequestSource (srcIrll k) s)
    have hu := unrequestSource_eq (srcIrll k) s
    have hui := unrequestSource_intc (srcIrll k) s
    refine ⟨i, ?_, ?_, ?_, ?_, ?_⟩
    · rw [List.foldl_cons, h1, hu]; rfl
    · rw [h2, hui]
    · intro y; rw [h3, unrequestSource_requesting]
      simp only [List.any_cons]
      cases decide (y = srcIrll k) <;> simp
    · intro h
      rw [h4, unrequestSource_of_idle (h k (by simp))]
      intro k' hk'
      rw [unrequestSource_of_idle (h k (by simp))]; exact h k' (by simp [hk'])
    · rintro ⟨k', hk', hr⟩
      by_cases hall : ∃ k'' ∈ l, (unrequestSource (srcIrll k) s).intc.requesting[srcIrll k''] = true
      · obtain ⟨a, b⟩ := h5 hall
        refine ⟨a, ?_⟩
        rw [hu] at b; exact b
      · have hk : s.intc.requesting[srcIrll k] = true := by
          by_contra hc
          rw [Bool.not_eq_true] at hc
          apply hall
          rcases List.mem_cons.1 hk' with rfl | hk'
          · rw [hr] at hc; cases hc
          · exact ⟨k', hk', by rw [unrequestSource_of_idle hc]; exact hr⟩
        have := h4 (by intro k'' hk''; rw [← Bool.not_eq_true]; exact fun e => hall ⟨k'', hk'', e⟩)
        rw [this]
        refine ⟨by rw [unrequestSource_of_requesting hk]; rfl, ?_⟩
        rw [← hu]
        exact unrequestSource_fresh (.inr hk)

theorem irll_any (y : Source) : (irllValues.any fun k => decide (y = srcIrll k)) = decide (17 ≤ y.val ∧ y.val ≤ 31) := by
  revert y; decide

theorem irll_mem (y : Source) (h : 17 ≤ y.val) (h' : y.val ≤ 31) : ∃ k ∈ irllValues, srcIrll k = y :=
  ⟨⟨y.val - 17, by omega⟩, by simp [irllValues], by apply Fin.ext; simp [srcIrll]; omega⟩

/-- `DMAC_NMI`'s walk over channels cancels those in flight, one diagnostic each, in order. -/
theorem nmiCancel_foldl (l : List Chan) (hl : l.Nodup) : ∀ s : State, ∃ d, l.foldl nmiCancel s = { s with
      dma := d
      outputs := s.outputs ++ ((l.filter fun n => (s.chan n).active).map fun n => Output.diag (.dmaCancelledByNmi n)) } ∧
    ∀ n : Chan, d[n] = if n ∈ l ∧ (s.chan n).active = true then (s.chan n).cancelled else s.chan n := by
  induction l with
  | nil => intro s; exact ⟨s.dma, by simp, fun n => by simp; rfl⟩
  | cons k l ih =>
    intro s
    obtain ⟨hk, hl⟩ := List.nodup_cons.1 hl
    obtain ⟨d, h1, h2⟩ := ih hl (nmiCancel s k)
    have hc : ∀ n : Chan, (nmiCancel s k).chan n = if n = k ∧ (s.chan k).active = true then (s.chan k).cancelled else s.chan n := by
      intro n; unfold nmiCancel
      split
      · rename_i h; simp only [emitDiag_chan, setChan_chan, h, and_true]
      · rename_i h; simp [h]
    refine ⟨d, ?_, ?_⟩
    · rw [List.foldl_cons, h1]
      have hfil : (l.filter fun n => ((nmiCancel s k).chan n).active) = l.filter fun n => (s.chan n).active := by
        apply List.filter_congr
        intro n hn
        rw [hc, if_neg]; rintro ⟨rfl, -⟩; exact hk hn
      rw [hfil]
      unfold nmiCancel
      by_cases h : (s.chan k).active = true
      · simp only [h, if_true, List.filter_cons, List.map_cons]
        simp [State.emitDiag, State.emit, State.setChan]
      · simp [h]
    · intro n; rw [h2, hc]
      by_cases hn : n = k
      · subst hn; simp [hk, DmaChannel.cancelled]
      · simp [hn]

/-- The priorities after a write of priority register `r`. -/
theorem prioWritten_get (cfg : Config) (r : Fin 4) (v : Word) (p : Vector Prio 64) (y : Source) :
    (prioWritten cfg r v p)[y] =
      match cfg.srcEntry y with
      | .fixed _ _ => p[y]
      | .nibble r' k => if r' = r then ⟨0, iprNibble v k.val⟩ else p[y] := by
  simp only [prioWritten, Fin.getElem_fin, Vector.getElem_ofFn]
  cases h : cfg.srcEntry y with
  | fixed l u => simp [writtenPrio]
  | nibble r' k => by_cases e : r' = r <;> simp [writtenPrio, e]

end Sys2Proof.Machine
end

