-- ==== Sys2Proof/Laws/Memory.lean ====
section
/-! SUPPORT. The memory operations of the DMA controller: every one keeps the canonical form and leaves the
bytes outside its units; a read gives back what was written, byte by byte; the addresses of a run. -/
namespace Sys2Proof.Machine
open Sys2Proof

/-! ## The canonical form -/

theorem foldl_wf {α : Type} (f : Memory → α → Memory)
    (hf : ∀ m x, Memory.wf m = true → Memory.wf (f m x) = true) (l : List α) {m : Memory}
    (h : Memory.wf m = true) : Memory.wf (l.foldl f m) = true := by
  induction l generalizing m with
  | nil => exact h
  | cons x l ih => exact ih (hf m x h)

theorem moveUnit_wf {m : Memory} (h : Memory.wf m = true) (e : Endian) (a d : Word) (z : Nat) :
    Memory.wf (moveUnit e m a d z) = true := by
  unfold moveUnit
  split
  · exact foldl_wf _ (fun m j hm => memWrite_wf hm _ _ _) _ h
  · exact memWrite_wf h _ _ _

theorem writeUnit_wf {m : Memory} (h : Memory.wf m = true) (e : Endian) (a : Word) (z : Nat) (v : BitVec 256) :
    Memory.wf (writeUnit e m a z v) = true := by
  unfold writeUnit
  split
  · exact foldl_wf _ (fun m j hm => memWrite_wf hm _ _ _) _ h
  · exact memWrite_wf h _ _ _

theorem copyUnits_wf {m : Memory} (h : Memory.wf m = true) (e : Endian) (src dst : Word) (z : Nat)
    (incs incd : Inc) (cnt : Nat) : Memory.wf (copyUnits e src dst z incs incd cnt m) = true := by
  induction cnt with
  | zero => exact h
  | succ k ih => exact moveUnit_wf ih ..

/-- A block copy keeps the canonical form. -/
theorem copyBlock_wf {cfg : Config} {m : Memory} {src dst : Word} {cnt z : Nat} {incs incd : Inc} {r : Copied}
    (hr : copyBlock cfg m src dst cnt z incs incd = some r) (h : Memory.wf m = true) : Memory.wf r.mem = true := by
  unfold copyBlock at hr
  dsimp only at hr
  split at hr
  · cases hr
  · cases hr
    exact copyUnits_wf h ..

/-! ## The frame -/

/-- A byte outside a span is none of its bytes. -/
theorem ne_of_not_inSpan {a : Word} {n i : Nat} {x : Word} (h : ¬inSpan a n x) (hi : i < n) :
    x ≠ a + BitVec.ofNat 32 i := by
  rintro rfl
  apply h
  unfold inSpan
  rw [BitVec.add_comm, BitVec.add_sub_cancel, BitVec.toNat_ofNat]
  exact lt_of_le_of_lt (Nat.mod_le _ _) hi

/-- A byte outside a 32-byte unit is none of the bytes of its four pieces. -/
theorem ne_of_not_inSpan_piece {a : Word} {x : Word} (h : ¬inSpan a 32 x) {j : Nat} (hj : j ∈ [0, 8, 16, 24])
    {i : Nat} (hi : i < 8) : x ≠ a + BitVec.ofNat 32 j + BitVec.ofNat 32 i := by
  have := ne_of_not_inSpan h (i := j + i)
    (by simp only [List.mem_cons, List.not_mem_nil, or_false] at hj; omega)
  rwa [BitVec.ofNat_add, ← BitVec.add_assoc] at this

theorem byteAt_moveUnit {e : Endian} {m : Memory} {a d : Word} {z : Nat} {x : Word} (h : ¬inSpan d z x) :
    byteAt (moveUnit e m a d z) x = byteAt m x := by
  unfold moveUnit
  split
  · rename_i hz
    subst hz
    simp only [List.foldl_cons, List.foldl_nil]
    rw [byteAt_memWrite_of_not_mem _ fun i => ne_of_not_inSpan_piece h (by simp),
      byteAt_memWrite_of_not_mem _ fun i => ne_of_not_inSpan_piece h (by simp),
      byteAt_memWrite_of_not_mem _ fun i => ne_of_not_inSpan_piece h (by simp),
      byteAt_memWrite_of_not_mem _ fun i => ne_of_not_inSpan_piece h (by simp)]
  · exact byteAt_memWrite_of_not_mem _ fun i => ne_of_not_inSpan h

theorem byteAt_writeUnit {e : Endian} {m : Memory} {d : Word} {z : Nat} {v : BitVec 256} {x : Word}
    (h : ¬inSpan d z x) : byteAt (writeUnit e m d z v) x = byteAt m x := by
  unfold writeUnit
  split
  · rename_i hz
    subst hz
    simp only [List.foldl_cons, List.foldl_nil]
    rw [byteAt_memWrite_of_not_mem _ fun i => ne_of_not_inSpan_piece h (by simp),
      byteAt_memWrite_of_not_mem _ fun i => ne_of_not_inSpan_piece h (by simp),
      byteAt_memWrite_of_not_mem _ fun i => ne_of_not_inSpan_piece h (by simp),
      byteAt_memWrite_of_not_mem _ fun i => ne_of_not_inSpan_piece h (by simp)]
  · exact byteAt_memWrite_of_not_mem _ fun i => ne_of_not_inSpan h

/-- A run of units leaves every byte outside the destination units. -/
theorem byteAt_copyUnits {e : Endian} {a d : Word} {z : Nat} {incs incd : Inc} {cnt : Nat} {m : Memory}
    {x : Word} (h : ∀ k < cnt, ¬inSpan (unitAddr d z incd k) z x) :
    byteAt (copyUnits e a d z incs incd cnt m) x = byteAt m x := by
  induction cnt with
  | zero => rfl
  | succ k ih => rw [copyUnits, byteAt_moveUnit (h k (by omega)), ih fun j hj => h j (by omega)]

/-! ## Read and write agree, under both byte orders -/

theorem byteLane_lt {e : Endian} {n i : Nat} (hi : i < n) : byteLane e n i < n := by
  cases e <;> simp only [byteLane] <;> omega

theorem byteLane_inj {e : Endian} {n i j : Nat} (hi : i < n) (hj : j < n)
    (h : byteLane e n i = byteLane e n j) : i = j := by
  cases e <;> simp only [byteLane] at h <;> omega

theorem getLsbD_foldl_or {α : Type} (f : α → BitVec 64) (l : List α) (acc : BitVec 64) (j : Nat) :
    (l.foldl (fun acc i => acc ||| f i) acc).getLsbD j = (acc.getLsbD j || l.any fun i => (f i).getLsbD j) := by
  induction l generalizing acc with
  | nil => simp
  | cons x l ih => rw [List.foldl_cons, ih]; simp [Bool.or_assoc]

/-- Each byte that a read gathers stands in its lane. -/
theorem memRead_lane (e : Endian) (m : Memory) (a : Word) {n : Nat} (hn : n ≤ 8) {i : Nat} (hi : i < n) :
    (memRead e m a n).extractLsb' (8 * byteLane e n i) 8 = byteAt m (a + BitVec.ofNat 32 i) := by
  apply BitVec.eq_of_getLsbD_eq
  intro t ht
  rw [BitVec.getLsbD_extractLsb']
  simp only [ht, decide_true, Bool.true_and]
  unfold memRead
  rw [getLsbD_foldl_or]
  have hl := byteLane_lt (e := e) hi
  have h1 : ∀ k < n, ((byteAt m (a + BitVec.ofNat 32 k)).setWidth 64 <<< (8 * byteLane e n k)).getLsbD
      (8 * byteLane e n i + t) = (decide (k = i) && (byteAt m (a + BitVec.ofNat 32 i)).getLsbD t) := by
    intro k hk
    rw [BitVec.getLsbD_shiftLeft, BitVec.getLsbD_setWidth]
    by_cases h : k = i
    · subst h
      have a1 : 8 * byteLane e n k + t < 64 := by omega
      simp [a1]; omega
    · have hne : byteLane e n k ≠ byteLane e n i := fun c => h (byteLane_inj hk hi c)
      simp only [h, decide_false, Bool.false_and]
      by_cases h2 : 8 * byteLane e n i + t < 8 * byteLane e n k
      · simp [h2]
      · rw [BitVec.getLsbD_of_ge (byteAt m (a + BitVec.ofNat 32 k))
          (8 * byteLane e n i + t - 8 * byteLane e n k) (by omega)]
        simp
  rw [show (0 : BitVec 64).getLsbD (8 * byteLane e n i + t) = false from BitVec.getLsbD_zero, Bool.false_or,
    Bool.eq_iff_iff, List.any_eq_true]
  simp only [List.mem_range]
  constructor
  · rintro ⟨k, hk, h⟩
    rw [h1 k hk] at h
    simp at h
    exact h.2
  · intro h
    exact ⟨i, hi, by rw [h1 i hi]; simpa using h⟩

/-- A move of `n` bytes copies them one by one, from the memory before it. -/
theorem byteAt_move (e : Endian) (m : Memory) (a d : Word) {n : Nat} (hn : n ≤ 8) (x : Word) :
    byteAt (memWrite e m d n (memRead e m a n)) x =
      if (x - d).toNat < n then byteAt m (a + (x - d)) else byteAt m x := by
  rw [byteAt_memWrite _ _ _ _ (by omega)]
  split
  · rename_i h
    rw [memRead_lane _ _ _ hn h, BitVec.ofNat_toNat, BitVec.setWidth_eq]
  · rfl

/-! ## The addresses of a run -/

theorem unitAddr_zero (x : Word) (z : Nat) (inc : Inc) : unitAddr x z inc 0 = stepBefore inc z x := by
  cases inc <;> simp [unitAddr, stepBefore]

/-- One turn of the copy loop moves the run on by one unit. -/
theorem unitAddr_step (x : Word) (z : Nat) (inc : Inc) (k : Nat) :
    unitAddr (stepAfter inc z (stepBefore inc z x)) z inc k = unitAddr x z inc (k + 1) := by
  cases inc <;> simp only [unitAddr, stepAfter, stepBefore, reduceCtorEq, if_true, if_false]
  · rw [BitVec.add_assoc, ← BitVec.ofNat_add]; congr 2; ring
  · rw [BitVec.sub_sub, ← BitVec.ofNat_add]; congr 2; ring

theorem endAddr_step (x : Word) (z : Nat) (inc : Inc) (k : Nat) :
    endAddr (stepAfter inc z (stepBefore inc z x)) z inc k = endAddr x z inc (k + 1) := by
  cases inc <;> simp only [endAddr, stepAfter, stepBefore, reduceCtorEq, if_true, if_false]
  · rw [BitVec.add_assoc, ← BitVec.ofNat_add]; congr 2; ring
  · rw [BitVec.sub_sub, ← BitVec.ofNat_add]; congr 2; ring

end Sys2Proof.Machine
end

