-- ==== Sys2Proof/Laws/Dma.lean ====
section
/-! SUPPORT. The window test of a unit (20_memory R82), the start check of the DMA controller, case by case, and
the parameters of a transfer (41_dmac R192, R196, R204). -/
namespace Sys2Proof.Machine
open Sys2Proof

theorem dmaEnabled_iff {s : State} {n : Chan} : dmaEnabled s n = true ↔ Enabled s n := by
  simp [dmaEnabled, Enabled, chcrDe, dmaorDme]

theorem ready_iff {s : State} {n : Chan} :
    Ready s n ↔ dmaEnabled s n = true ∧ (s.chan n).active = false ∧ dmaStartAllowed s n = true := by
  unfold Ready dmaStartAllowed dmaorAe dmaorNmif chcrTe
  rw [dmaEnabled_iff]
  cases s.cfg.startRequiresTeClear <;> cases bit (s.reg (.chcr n)) 1 <;> simp

theorem requestSelect_eq (s : State) (n : Chan) : requestSelect s n = (chcrRs (s.reg (.chcr n))).toNat := rfl

/-! ## The register window -/

/-- The test of a unit says what `UnitFree` says, access by access (20_memory R82, R84). -/
theorem unitMeetsWindow_eq_false {cfg : Config} {a : Word} {z : Nat} :
    unitMeetsWindow cfg a z = false ↔ UnitFree cfg a z := by
  unfold unitMeetsWindow accessOffsets UnitFree
  by_cases h : z = 32 <;> simp [h, List.any_cons, Bool.or_eq_false_iff]

theorem unitMeetsWindow_eq_true {cfg : Config} {a : Word} {z : Nat} :
    unitMeetsWindow cfg a z = true ↔ ¬UnitFree cfg a z := by
  rw [← unitMeetsWindow_eq_false, Bool.not_eq_false]

/-- Outside 32-byte units a unit is one access. -/
theorem unitMeetsWindow_of_ne {cfg : Config} {a : Word} {z : Nat} (h : z ≠ 32) :
    unitMeetsWindow cfg a z = inWindow cfg a := by
  simp [unitMeetsWindow, accessOffsets, h]

/-! ## The parameters -/

theorem ofCode_illegal {c : BitVec 2} : Inc.ofCode c = .illegal ↔ c = 3 := by revert c; decide

theorem unitSize_eq_zero {t : BitVec 3} : unitSize t = 0 ↔ 5 ≤ t.toNat := by revert t; decide

theorem unitSize_mem {t : BitVec 3} : unitSize t ≠ 0 → unitSize t ∈ [1, 2, 4, 8, 32] := by revert t; decide

theorem dmaCount_pos (v : Word) : 1 ≤ dmaCount v := by
  unfold dmaCount
  split <;> omega

theorem dmaCount_le (v : Word) : dmaCount v ≤ 0x1000000 := by
  have := (field v 0 24).isLt
  unfold dmaCount
  split <;> omega

/-- What the parameters of a start are, when it succeeds. -/
theorem dmaSetup_ok {s : State} {n : Chan} {p : DmaSetup} (h : dmaSetup s n = .ok p) :
    p = ⟨unitSize (chcrTs (s.reg (.chcr n))), Inc.ofCode (chcrSm (s.reg (.chcr n))),
      Inc.ofCode (chcrDm (s.reg (.chcr n))), dmaCount (s.reg (.dmatcr n))⟩ ∧
    p.incs ≠ .illegal ∧ p.incd ≠ .illegal ∧ p.size ∈ [1, 2, 4, 8, 32] ∧ 1 ≤ p.count ∧ p.count ≤ 0x1000000 := by
  unfold dmaSetup at h
  dsimp only at h
  split at h
  · cases h
  · split at h
    · cases h
    · rename_i h1 h2
      cases h
      rw [not_or] at h1
      exact ⟨rfl, h1.1, h1.2, unitSize_mem h2, dmaCount_pos _, dmaCount_le _⟩

theorem dmaSetup_error_inc {s : State} {n : Chan}
    (h : chcrSm (s.reg (.chcr n)) = 3 ∨ chcrDm (s.reg (.chcr n)) = 3) :
    dmaSetup s n = .error (.dmaBadIncrement n) := by
  simp only [dmaSetup, ofCode_illegal, h, if_true]

theorem dmaSetup_error_size {s : State} {n : Chan} (h1 : chcrSm (s.reg (.chcr n)) ≠ 3)
    (h2 : chcrDm (s.reg (.chcr n)) ≠ 3) (h3 : 5 ≤ (chcrTs (s.reg (.chcr n))).toNat) :
    dmaSetup s n = .error (.dmaBadSize n) := by
  simp only [dmaSetup, ofCode_illegal, unitSize_eq_zero, h1, h2, h3, or_self, if_true, if_false]

/-! ## The start check -/

theorem check_disabled_idle {s : State} {n : Chan} (h : ¬Enabled s n) (h' : (s.chan n).active = false) :
    checkChannel n s = .next s := by
  rw [← dmaEnabled_iff] at h
  simp [checkChannel, h, h']

theorem check_disabled_active {s : State} {n : Chan} (h : ¬Enabled s n) (h' : (s.chan n).active = true) :
    checkChannel n s = .next ((s.setChan n (s.chan n).cancelled).emitDiag (.dmaCancelledByDisable n)) := by
  rw [← dmaEnabled_iff] at h
  simp [checkChannel, h, h']

theorem check_held {s : State} {n : Chan} (h : Enabled s n)
    (h' : ¬Ready s n ∨ requestSelect s n ∉ [2, 3, 4, 5, 6]) : checkChannel n s = .next s := by
  rw [ready_iff, requestSelect_eq] at h'
  rw [← dmaEnabled_iff] at h
  unfold checkChannel
  simp only [List.mem_cons, List.not_mem_nil, or_false, not_or] at h'
  simp only [h, if_true]
  split
  · rfl
  · split
    · rfl
    · rename_i h1 h2
      rw [Bool.not_eq_true] at h1
      rw [Bool.not_eq_false] at h2
      have h4 := h'.resolve_left fun c => c ⟨h, h1, h2⟩
      rw [if_neg (by omega), if_neg (by omega)]

theorem check_burst {s : State} {n : Chan} (h : Ready s n) (h' : requestSelect s n ∈ [4, 5, 6]) :
    checkChannel n s = transfer n .burst s := by
  rw [ready_iff] at h
  rw [requestSelect_eq] at h'
  unfold checkChannel
  simp only [List.mem_cons, List.not_mem_nil, or_false] at h'
  simp only [h, if_true, Bool.false_eq_true, if_false, Bool.true_eq_false, h']

theorem check_device {s : State} {n : Chan} (h : Ready s n) (h' : requestSelect s n ∈ [2, 3]) :
    checkChannel n s = .next (transferDevice n s) := by
  rw [ready_iff] at h
  rw [requestSelect_eq] at h'
  unfold checkChannel
  simp only [List.mem_cons, List.not_mem_nil, or_false] at h'
  simp only [h, if_true, Bool.false_eq_true, if_false, Bool.true_eq_false, h']
  rw [if_neg (by omega)]

/-- The check is one of these five. -/
theorem check_cases (s : State) (n : Chan) :
    (¬Enabled s n ∧ (s.chan n).active = false) ∨ (¬Enabled s n ∧ (s.chan n).active = true) ∨
    (Enabled s n ∧ (¬Ready s n ∨ requestSelect s n ∉ [2, 3, 4, 5, 6])) ∨
    (Ready s n ∧ requestSelect s n ∈ [4, 5, 6]) ∨ (Ready s n ∧ requestSelect s n ∈ [2, 3]) := by
  by_cases he : Enabled s n
  · by_cases hr : Ready s n
    · by_cases h1 : requestSelect s n ∈ [4, 5, 6]
      · exact .inr (.inr (.inr (.inl ⟨hr, h1⟩)))
      · by_cases h2 : requestSelect s n ∈ [2, 3]
        · exact .inr (.inr (.inr (.inr ⟨hr, h2⟩)))
        · refine .inr (.inr (.inl ⟨he, .inr ?_⟩))
          simp only [List.mem_cons, List.not_mem_nil, or_false] at h1 h2 ⊢
          omega
    · exact .inr (.inr (.inl ⟨he, .inl hr⟩))
  · cases h : (s.chan n).active
    · exact .inl ⟨he, rfl⟩
    · exact .inr (.inl ⟨he, rfl⟩)

theorem transfer_of_error {s : State} {n : Chan} {d : Diag} (h : dmaSetup s n = .error d) (m : TransferMode) :
    transfer n m s = .next (s.emitDiag d) := by
  simp [transfer, transferFrom, h]

theorem transferDevice_of_error {s : State} {n : Chan} {d : Diag} (h : dmaSetup s n = .error d) :
    transferDevice n s = s.emitDiag d := by
  simp [transferDevice, h]

/-- If a burst answers a state, it failed with a diagnostic, or copied its block and armed its channel. -/
theorem transfer_burst_next {s t : State} {n : Chan} (h : transfer n .burst s = .next t) :
    (∃ d, dmaSetup s n = .error d ∧ t = s.emitDiag d) ∨
    ∃ p r, dmaSetup s n = .ok p ∧
      copyBlock s.cfg s.mem (s.reg (.sar n)) (s.reg (.dar n)) p.count p.size p.incs p.incd = some r ∧
      t = writeBack n r.src r.dst
        ((s.setChan n { s.chan n with
          active := true, kind := .burst, deadline := some (s.now + burstDelay s.cfg p.count) }).setMem r.mem) := by
  unfold transfer transferFrom at h
  cases hs : dmaSetup s n with
  | error d =>
    rw [hs] at h
    cases h
    exact .inl ⟨d, rfl, rfl⟩
  | ok p =>
    rw [hs] at h
    dsimp only at h
    cases hc : copyBlock s.cfg s.mem (s.reg (.sar n)) (s.reg (.dar n)) p.count p.size p.incs p.incd with
    | none => rw [hc] at h; cases h
    | some r =>
      rw [hc] at h
      cases h
      exact .inr ⟨p, r, rfl, hc, rfl⟩

/-- Chained procedures answer a state only if each does. -/
theorem andThen_inv {r : Result} {f : State → Result} {t : State} (h : andThen r f = .next t) :
    ∃ s, r = .next s ∧ f s = .next t := by
  cases r with
  | next s => exact ⟨s, rfl, h⟩
  | fault e => cases h
  | refused e => cases h

theorem andThen_assoc (r : Result) (f g : State → Result) :
    andThen (andThen r f) g = andThen r fun s => andThen (f s) g := by
  cases r <;> rfl

/-- The write-back leaves everything but the two address registers. -/
theorem writeBack_frame (n : Chan) (a b : Word) (s : State) :
    writeBack n a b s = { s with regs := (writeBack n a b s).regs } := by
  unfold writeBack
  split <;> rfl

/-- `AE` and `NMIF` of the old word survive, no other bit is touched (41_dmac R223). -/
theorem bit_dmaorKept (old new : Word) (j : Nat) :
    bit (dmaorKept old new) j = (bit new j && (!decide (j = 1 ∨ j = 2) || bit old j)) := by
  unfold dmaorKept dmaorAe putAe dmaorNmif putNmif
  have h1 : ∀ v : Word, bit (putBit v 2 false) 1 = bit v 1 := by intro v; rw [bit_putBit_false]; simp
  by_cases j1 : j = 1
  · subst j1
    cases ha : bit new 2 <;> cases hb : bit old 2 <;> simp [h1]
    all_goals cases hc : bit new 1 <;> cases hd : bit old 1 <;> simp [hc, bit_putBit_false]
  · by_cases j2 : j = 2
    · subst j2
      cases ha : bit new 2 <;> cases hb : bit old 2 <;> simp [h1]
      all_goals cases hc : bit new 1 <;> cases hd : bit old 1 <;> simp [ha, bit_putBit_false]
    · have h2 : ∀ v : Word, bit (putBit v 2 false) j = bit v j ∧ bit (putBit v 1 false) j = bit v j := by
        intro v
        rw [bit_putBit_false, bit_putBit_false]
        simp [j1, j2]
      simp only [j1, j2, or_self, decide_false, Bool.not_false, Bool.true_or, Bool.and_true]
      split <;> split <;> simp [h2]

end Sys2Proof.Machine
end

