-- ==== Sys2Proof/Laws/Encoding.lean ====
section
/-! SUPPORT. The fields of an encoded word, and what the decoder reads from each of them. -/
namespace Sys2Proof

theorem portWord_op (op : Byte) (arg : Word) : (op ++ arg : BitVec 40).extractLsb' 32 8 = op :=
  BitVec.extractLsb'_append_eq_left

theorem portWord_arg (op : Byte) (arg : Word) : (op ++ arg : BitVec 40).extractLsb' 0 32 = arg :=
  BitVec.extractLsb'_append_eq_right

/-- The mask of a port row keeps the `op`. -/
theorem portWord_mask (op : Byte) (arg : Word) : (op ++ arg : BitVec 40) &&& 0xFF00000000#40 = op ++ 0#32 := by
  have hm : (0xFF00000000#40 : BitVec 40) = (0xFF#8 ++ 0#32 : BitVec 40) := by decide
  rw [hm, BitVec.and_append]
  congr 1
  · exact BitVec.and_allOnes
  · exact BitVec.and_zero

theorem field_ofNat_toNat (n lo k : Nat) :
    (field (BitVec.ofNat 32 n) lo k).toNat = n % 2 ^ 32 / 2 ^ lo % 2 ^ k := by
  simp [field, BitVec.extractLsb', Nat.shiftRight_eq_div_pow]

theorem decodeWidth_code (w : Width) : decodeWidth w.code = .ok w := by cases w <;> rfl

/-- Only the width code 3 is refused. -/
theorem decodeWidth_error_iff (c : BitVec 2) : (∃ e, decodeWidth c = .error e) ↔ c = 3 := by
  have : c = 0 ∨ c = 1 ∨ c = 2 ∨ c = 3 := by revert c; decide
  rcases this with rfl | rfl | rfl | rfl <;> simp [decodeWidth]

/-- The source number survives its 6-bit field. -/
theorem decodeSource_code {cfg : Config} {s : Source} (h : s.val < cfg.nSrc) (k : Source → Instr) :
    decodeSource cfg (BitVec.ofNat 32 s.val) k = .ok (k s) := by
  have hs := s.isLt
  have e : (field (BitVec.ofNat 32 s.val) 0 6).toNat = s.val := by rw [field_ofNat_toNat]; omega
  unfold decodeSource
  rw [if_pos (by omega)]
  congr 2
  exact Fin.ext e

theorem decodeTimer_code (t : TimerId) : decodeTimer (field (BitVec.ofNat 32 t.code) 0 4) = .ok t := by
  cases t with
  | dma n => revert n; decide
  | tmu n => revert n; decide
  | ref => rfl
  | rtc => rfl

/-- A bus operation is the one that its access names. -/
theorem instr_of_busAccess {i : Instr} {b : BusAccess} (h : i.busAccess = some b) :
    (match b.write, b.target with
      | true, some r => Instr.ofWrite b.width b.addr b.data r
      | true, none => .wrDefault b.width b.addr b.data
      | false, some r => .ofRead b.width b.addr r
      | false, none => .rdDefault b.width b.addr) = i := by
  cases i <;> first | (cases h; done) | (cases h; rfl)

/-- The four fields of a format B word, whatever they hold. -/
theorem busWord_fields (x : BitVec 1) (c : BitVec 2) (a d : Word) :
    (x ++ c ++ a ++ d : BitVec 67).getLsbD 66 = x.getLsbD 0 ∧
    (x ++ c ++ a ++ d : BitVec 67).extractLsb' 64 2 = c ∧
    (x ++ c ++ a ++ d : BitVec 67).extractLsb' 32 32 = a ∧
    (x ++ c ++ a ++ d : BitVec 67).extractLsb' 0 32 = d := by
  refine ⟨?_, ?_, ?_, ?_⟩
  · rw [BitVec.getLsbD_append, BitVec.getLsbD_append, BitVec.getLsbD_append]; rfl
  · apply BitVec.eq_of_getLsbD_eq; intro j hj
    rw [BitVec.getLsbD_extractLsb', BitVec.getLsbD_append, BitVec.getLsbD_append, BitVec.getLsbD_append,
      if_neg (by omega), if_neg (by omega), if_pos (by omega)]
    simp only [hj, decide_true, Bool.true_and]; congr 1; omega
  · apply BitVec.eq_of_getLsbD_eq; intro j hj
    rw [BitVec.getLsbD_extractLsb', BitVec.getLsbD_append, BitVec.getLsbD_append, if_neg (by omega),
      if_pos (by omega)]
    simp only [hj, decide_true, Bool.true_and]; congr 1; omega
  · apply BitVec.eq_of_getLsbD_eq; intro j hj
    rw [BitVec.getLsbD_extractLsb', BitVec.getLsbD_append, if_pos (by omega)]
    simp only [hj, decide_true, Bool.true_and]; congr 1; omega

/-- The fields that the decoder reads from an encoded bus operation. -/
theorem encodeB_fields (b : BusAccess) :
    (BitVec.ofBool b.write ++ b.width.code ++ b.addr ++ b.data : BitVec 67).getLsbD 66 = b.write ∧
    (BitVec.ofBool b.write ++ b.width.code ++ b.addr ++ b.data : BitVec 67).extractLsb' 64 2 = b.width.code ∧
    (BitVec.ofBool b.write ++ b.width.code ++ b.addr ++ b.data : BitVec 67).extractLsb' 32 32 = b.addr ∧
    (BitVec.ofBool b.write ++ b.width.code ++ b.addr ++ b.data : BitVec 67).extractLsb' 0 32 = b.data := by
  obtain ⟨h1, h2, h3, h4⟩ := busWord_fields (BitVec.ofBool b.write) b.width.code b.addr b.data
  refine ⟨?_, h2, h3, h4⟩
  rw [h1]; cases b.write <;> rfl

/-- The mask of a bus row, `rw` and the index bits of the address, keeps just those. -/
theorem busWord_mask (x : BitVec 1) (c : BitVec 2) (a d m : Word) :
    (x ++ c ++ a ++ d : BitVec 67) &&& (1#1 ++ 0#2 ++ m ++ 0#32 : BitVec 67) =
      (x ++ 0#2 ++ (a &&& m) ++ 0#32 : BitVec 67) := by
  have hx : x &&& 1#1 = x := BitVec.and_allOnes
  have hc : c &&& 0#2 = 0#2 := BitVec.and_zero
  have hd : d &&& 0#32 = 0#32 := BitVec.and_zero
  rw [BitVec.and_append, BitVec.and_append, BitVec.and_append, hx, hc, hd]

/-- `RegIndex` keeps the bits 7:2 and 24:17 of an address: addresses of one index agree on them. -/
theorem regIndex_eq_mask {a b : Word}
    (h : regIndex Machine.defaultConfig a = regIndex Machine.defaultConfig b) :
    a &&& 0x01FE00FC#32 = b &&& 0x01FE00FC#32 := by
  have e : ∀ v : Word, regIndex Machine.defaultConfig v =
      (((v &&& 0xFC#32) >>> 2) ||| ((v &&& 0x01FE0000#32) >>> 11)).toNat % 2 ^ 14 := by
    intro v
    show (((0#32 ||| ((v &&& 0xFC#32) >>> 2)) ||| ((v &&& 0x01FE0000#32) >>> 11)).toNat) % 0x4000 = _
    rw [BitVec.zero_or]; rfl
  rw [e, e] at h
  have h : ∀ j < 14, (((a &&& 0xFC#32) >>> 2) ||| ((a &&& 0x01FE0000#32) >>> 11)).getLsbD j =
      (((b &&& 0xFC#32) >>> 2) ||| ((b &&& 0x01FE0000#32) >>> 11)).getLsbD j := by
    intro j hj
    have := congrArg (fun n => Nat.testBit n j) h
    simp only [Nat.testBit_mod_two_pow, hj, decide_true, Bool.true_and] at this
    exact this
  have hm1 : ∀ j < 32, (0xFC#32).getLsbD j = decide (2 ≤ j ∧ j < 8) := by decide
  have hm2 : ∀ j < 32, (0x01FE0000#32).getLsbD j = decide (17 ≤ j ∧ j < 25) := by decide
  have hm : ∀ j < 32, (0x01FE00FC#32).getLsbD j = decide (2 ≤ j ∧ j < 8 ∨ 17 ≤ j ∧ j < 25) := by decide
  have key : ∀ (v : Word) (j : Nat), j < 6 →
      (((v &&& 0xFC#32) >>> 2) ||| ((v &&& 0x01FE0000#32) >>> 11)).getLsbD j = v.getLsbD (j + 2) := by
    intro v j hj
    rw [BitVec.getLsbD_or, BitVec.getLsbD_ushiftRight, BitVec.getLsbD_ushiftRight, BitVec.getLsbD_and,
      BitVec.getLsbD_and, hm1 _ (by omega), hm2 _ (by omega), decide_eq_true (by omega), decide_eq_false (by omega)]
    simp [Nat.add_comm]
  have key2 : ∀ (v : Word) (j : Nat), 6 ≤ j → j < 14 →
      (((v &&& 0xFC#32) >>> 2) ||| ((v &&& 0x01FE0000#32) >>> 11)).getLsbD j = v.getLsbD (j + 11) := by
    intro v j hj hj'
    rw [BitVec.getLsbD_or, BitVec.getLsbD_ushiftRight, BitVec.getLsbD_ushiftRight, BitVec.getLsbD_and,
      BitVec.getLsbD_and, hm1 _ (by omega), hm2 _ (by omega), decide_eq_false (by omega), decide_eq_true (by omega)]
    simp [Nat.add_comm]
  apply BitVec.eq_of_getLsbD_eq; intro j hj
  rw [BitVec.getLsbD_and, BitVec.getLsbD_and, hm j hj]
  by_cases h1 : 2 ≤ j ∧ j < 8
  · have e : j = (j - 2) + 2 := by omega
    rw [e, ← key a _ (by omega), ← key b _ (by omega), h _ (by omega)]
  · by_cases h2 : 17 ≤ j ∧ j < 25
    · have e : j = (j - 11) + 11 := by omega
      rw [e, ← key2 a _ (by omega) (by omega), ← key2 b _ (by omega) (by omega), h _ (by omega)]
    · simp [h1, h2]

/-- A bus operation that is well formed names its register by index. -/
theorem wellFormed_index {cfg : Config} {i : Instr} {b : BusAccess} {r : Reg} (hb : i.busAccess = some b)
    (ht : b.target = some r) (h : i.wellFormed cfg = true) : regIndex cfg b.addr = cfg.index r := by
  unfold Instr.wellFormed BusAccess.wellFormed BusAccess.indexFits at h
  rw [hb] at h
  simp only [Bool.and_eq_true, decide_eq_true_eq, ht] at h
  have := List.find?_some h.2
  exact (beq_iff_eq.1 this).symm

end Sys2Proof
end

