-- ==== Sys2Proof/Laws/Timers.lean ====
section
/-! SUPPORT. Time, the timers, the calendar registers and the GPIO glue: when a timer is due, what arming and
the write handlers leave in each register. -/
namespace Sys2Proof.Machine
open Sys2Proof

/-! ## Deadlines -/

theorem mem_allTimers (t : TimerId) : t ∈ allTimers := by
  cases t with
  | dma n => revert n; decide
  | tmu n => revert n; decide
  | ref => decide
  | rtc => decide

theorem noDeadlineBefore_iff {t : Time} {s : State} :
    noDeadlineBefore t s = true ↔ ∀ i d, deadlineOf i s = some d → t ≤ d := by
  unfold noDeadlineBefore
  simp only [List.all_eq_true, mem_allTimers, forall_true_left]
  refine forall_congr' fun i => ?_
  cases deadlineOf i s <;> simp

theorem timerDue_iff {t : TimerId} {s : State} :
    timerDue t s = true ↔ ∃ d, deadlineOf t s = some d ∧ d ≤ s.now := by
  unfold timerDue
  cases deadlineOf t s <;> simp

/-- A due timer fires. -/
theorem fire_of_due {t : TimerId} {s : State} {d : Time} (h : deadlineOf t s = some d) (h' : d ≤ s.now) :
    exec (.fire t) s = .next (expire t s) := by
  change execFire t s = _
  rw [execFire, if_pos (timerDue_iff.2 ⟨d, h, h'⟩)]

/-! ## Arming -/

theorem tmuArm_eq (n : TmuChan) (s : State) :
    tmuArm n s = s.setTimer n (armedTimer s n (s.reg (.tcnt n)) (s.reg (.tcr n))) := by
  unfold tmuArm armedTimer tmuPeriod tmuDivOf tcrTpsc
  split <;> rfl

theorem armedTimer_congr {n : TmuChan} {s t : State} (h1 : t.timer n = s.timer n) (h2 : t.now = s.now)
    (h3 : t.cfg = s.cfg) (a b : Word) : armedTimer t n a b = armedTimer s n a b := by
  unfold armedTimer
  rw [h1, h2, h3]

theorem tmuLive_congr {n : TmuChan} {s t : State} (h1 : t.timer n = s.timer n)
    (h2 : t.reg (.tcnt n) = s.reg (.tcnt n)) (h3 : t.reg (.tcr n) = s.reg (.tcr n)) (h4 : t.now = s.now)
    (h5 : t.cfg = s.cfg) : tmuLive n t = tmuLive n s := by
  unfold tmuLive
  rw [h1, h2, h3, h4, h5]

theorem refArm_eq (s : State) :
    refArm s = s.setRefresh (armedRefresh s (s.reg .rtcor) (s.reg .rtcnt) (s.reg .rtcsr)) := rfl

theorem refActive_iff {s : State} : refActive s = true ↔ field (s.reg .rtcsr) 3 3 ≠ 0 := by
  unfold refActive rtcsrCks
  rw [decide_eq_true_eq]

/-! ## States that differ in the register file alone -/

theorem setReg_regsOnly {s t : State} (h : t = { s with regs := t.regs }) (r : Reg) (v : Word) :
    t.setReg r v = { s with regs := (t.setReg r v).regs } := by
  generalize t.regs = l at h
  subst h; rfl

/-! ## The calendar registers -/

theorem calendar_congr {s t : State} (h : ∀ r ∈ calendarRegs, t.reg r = s.reg r) : t.calendar = s.calendar := by
  unfold State.calendar
  simp only [calendarRegs, List.forall_mem_cons] at h
  obtain ⟨h1, h2, h3, h4, h5, h6, h7, -⟩ := h
  rw [h1, h2, h3, h4, h5, h6, h7]

/-! ## `CAL_INC`: what it keeps, and what it leaves where the seven registers stand on seven cells -/

/-- What every write of a calendar register keeps. -/
def KeptByCalendar (P : State → Prop) : Prop := ∀ r ∈ calendarRegs, ∀ (v : Word) (u : State), P u → P (u.setReg r v)

section
variable {P : State → Prop} (hP : KeptByCalendar P) {s : State} (h : P s)
include hP h

theorem keeps_calStage {r : Reg} (hr : r ∈ calendarRegs) (limit first : Word) {next : State → State}
    (hn : ∀ u, P u → P (next u)) : P (calStage r limit first next s) := by
  unfold calStage
  dsimp only
  split
  · exact hn _ (hP r hr _ _ (hP r hr _ _ h))
  · exact hP r hr _ _ h

theorem keeps_incMonth : P (incMonth s) :=
  keeps_calStage hP h (by decide) _ _ fun _ hu => hP .ryrcnt (by decide) _ _ hu

theorem keeps_incWeekday : P (incWeekday s) := by
  unfold incWeekday
  dsimp only
  have h1 := hP .rwkcnt (by decide) (s.reg .rwkcnt + 1) s h
  split
  · exact hP .rwkcnt (by decide) _ _ h1
  · exact h1

theorem keeps_incDay : P (incDay s) := by
  unfold incDay
  dsimp only
  have h1 := hP .rdaycnt (by decide) (bcdInc ((incWeekday s).reg .rdaycnt)) _ (keeps_incWeekday hP h)
  split
  · exact keeps_incMonth hP (hP .rdaycnt (by decide) _ _ h1)
  · exact h1

theorem keeps_incHour : P (incHour s) := keeps_calStage hP h (by decide) _ _ fun _ hu => keeps_incDay hP hu

/-- `CAL_INC(from_minutes)` keeps what every write of a calendar register keeps. -/
theorem keeps_incMinute : P (incMinute s) := keeps_calStage hP h (by decide) _ _ fun _ hu => keeps_incHour hP hu

/-- `CAL_INC(from_seconds)` keeps what every write of a calendar register keeps. -/
theorem keeps_incSecond : P (incSecond s) := keeps_calStage hP h (by decide) _ _ fun _ hu => keeps_incMinute hP hu

end

/-- The state differs in the cells of the calendar registers alone. -/
def CalendarOnly (s t : State) : Prop :=
  t = { s with regs := t.regs } ∧ ∀ i, i ∉ calendarRegs.map s.cfg.index → t.cell i = s.cell i

theorem CalendarOnly.refl (s : State) : CalendarOnly s s := ⟨rfl, fun _ _ => rfl⟩

theorem CalendarOnly.cfg {s t : State} (h : CalendarOnly s t) : t.cfg = s.cfg := by rw [h.1]

theorem CalendarOnly.reg {s t : State} (h : CalendarOnly s t) (hs : s.cfg.separate = true) {r : Reg}
    (hr : r ∉ calendarRegs) : t.reg r = s.reg r := by
  have hi : s.cfg.index r ∉ calendarRegs.map s.cfg.index := by
    rw [List.mem_map]
    rintro ⟨q, hq, he⟩
    exact hr ((index_inj hs).1 he ▸ hq)
  have := h.2 _ hi
  unfold State.reg
  rw [h.cfg, this]

theorem calendarOnly_kept (s : State) : KeptByCalendar (CalendarOnly s) := fun r hr v u hu =>
  ⟨setReg_regsOnly hu.1 r v, fun i hi => by
    rw [setReg_cell, hu.cfg, if_neg, hu.2 i hi]
    rintro rfl
    exact hi (List.mem_map_of_mem hr)⟩

theorem incWeekday_only (s : State) : CalendarOnly s (incWeekday s) := keeps_incWeekday (calendarOnly_kept s) (.refl s)

theorem incMinute_only (s : State) : CalendarOnly s (incMinute s) := keeps_incMinute (calendarOnly_kept s) (.refl s)

theorem incSecond_only (s : State) : CalendarOnly s (incSecond s) := keeps_incSecond (calendarOnly_kept s) (.refl s)

/-- The registers that a calendar register's write leaves, one lemma for each. -/
theorem setReg_calendar {s : State} (hs : s.cfg.separate = true) (v : Word) :
    (s.setReg .rseccnt v).calendar = { s.calendar with sec := v } ∧
    (s.setReg .rmincnt v).calendar = { s.calendar with min := v } ∧
    (s.setReg .rhrcnt v).calendar = { s.calendar with hr := v } ∧
    (s.setReg .rwkcnt v).calendar = { s.calendar with wk := v } ∧
    (s.setReg .rdaycnt v).calendar = { s.calendar with day := v } ∧
    (s.setReg .rmoncnt v).calendar = { s.calendar with mon := v } ∧
    (s.setReg .ryrcnt v).calendar = { s.calendar with yr := v } := by
  unfold State.calendar
  simp only [setReg_reg, hs, reduceCtorEq, if_false, if_true, and_self]

theorem incYear_calendar {s : State} (hs : s.cfg.separate = true) :
    (incYear s).calendar = { s.calendar with yr := yearInc s.calendar.yr } := (setReg_calendar hs _).2.2.2.2.2.2

theorem incMonth_calendar {s : State} (hs : s.cfg.separate = true) : (incMonth s).calendar = calMonth s.calendar := by
  unfold incMonth calStage calMonth
  simp only [setReg_reg, hs, if_true]
  change (if bcdInc s.calendar.mon = _ then _ else _ : State).calendar = _
  split
  · rw [incYear_calendar (by exact hs), (setReg_calendar (by exact hs) _).2.2.2.2.2.1,
      (setReg_calendar hs _).2.2.2.2.2.1]
  · exact (setReg_calendar hs _).2.2.2.2.2.1

theorem incWeekday_calendar {s : State} (hs : s.cfg.separate = true) :
    (incWeekday s).calendar = { s.calendar with wk := if s.calendar.wk + 1 = 7 then 0 else s.calendar.wk + 1 } := by
  unfold incWeekday
  simp only [setReg_reg, hs, if_true]
  change (if s.calendar.wk + 1 = 7 then _ else _ : State).calendar = _
  split
  · rw [(setReg_calendar (by exact hs) _).2.2.2.1, (setReg_calendar hs _).2.2.2.1]
  · exact (setReg_calendar hs _).2.2.2.1

theorem incDay_calendar {s : State} (hs : s.cfg.separate = true) :
    (incDay s).calendar = calDay s.cfg s.calendar := by
  have hw := incWeekday_calendar hs
  have hc := (incWeekday_only s).cfg
  unfold incDay calDay
  generalize incWeekday s = t at hw hc
  have ht : t.cfg.separate = true := by rw [hc]; exact hs
  simp only [setReg_reg, ht, if_true]
  change (if monthDays t.cfg (bcdValue t.calendar.mon) (yearValue t.calendar.yr) < bcdValue (bcdInc t.calendar.day)
    then _ else _ : State).calendar = _
  rw [hc]
  generalize s.calendar = c at hw ⊢
  have hd := (setReg_calendar ht (bcdInc t.calendar.day)).2.2.2.2.1
  change (t.setReg .rdaycnt (bcdInc (t.reg .rdaycnt))).calendar = _ at hd
  by_cases h : monthDays s.cfg (bcdValue t.calendar.mon) (yearValue t.calendar.yr) < bcdValue (bcdInc t.calendar.day)
  · rw [if_pos h, incMonth_calendar (by exact ht), (setReg_calendar (by exact ht) _).2.2.2.2.1, hd]
    rw [hw] at h ⊢
    rw [if_pos h]
  · rw [if_neg h, hd]
    rw [hw] at h ⊢
    rw [if_neg h]

theorem incHour_calendar {s : State} (hs : s.cfg.separate = true) :
    (incHour s).calendar = calHour s.cfg s.calendar := by
  unfold incHour calStage calHour
  simp only [setReg_reg, hs, if_true]
  change (if bcdInc s.calendar.hr = _ then _ else _ : State).calendar = _
  split
  · rw [incDay_calendar (by exact hs), (setReg_calendar (by exact hs) _).2.2.1, (setReg_calendar hs _).2.2.1]; rfl
  · exact (setReg_calendar hs _).2.2.1

theorem incMinute_calendar {s : State} (hs : s.cfg.separate = true) :
    (incMinute s).calendar = calMinute s.cfg s.calendar := by
  unfold incMinute calStage calMinute
  simp only [setReg_reg, hs, if_true]
  change (if bcdInc s.calendar.min = _ then _ else _ : State).calendar = _
  split
  · rw [incHour_calendar (by exact hs), (setReg_calendar (by exact hs) _).2.1, (setReg_calendar hs _).2.1]; rfl
  · exact (setReg_calendar hs _).2.1

/-- `CAL_INC(from_seconds)` where no two registers share a cell. -/
theorem incSecond_calendar {s : State} (hs : s.cfg.separate = true) :
    (incSecond s).calendar = calSecond s.cfg s.calendar := by
  unfold incSecond calStage calSecond
  simp only [setReg_reg, hs, if_true]
  change (if bcdInc s.calendar.sec = _ then _ else _ : State).calendar = _
  split
  · rw [incMinute_calendar (by exact hs), (setReg_calendar (by exact hs) _).1, (setReg_calendar hs _).1]; rfl
  · exact (setReg_calendar hs _).1

/-! ## The handler of `TSTR` -/

theorem tstrChannel_eq (old : Word) (s : State) (n : TmuChan) :
    tstrChannel old s n =
      if bit old n.val = false ∧ bit (s.reg .tstr) n.val = true then
        s.setTimer n (armedTimer s n (s.reg (.tcnt n)) (s.reg (.tcr n)))
      else if bit old n.val = true ∧ bit (s.reg .tstr) n.val = false then
        (s.setReg (.tcnt n) (tmuLive n s)).setTimer n { s.timer n with deadline := none }
      else s := by
  unfold tstrChannel
  rw [tmuArm_eq]
  unfold tstrStr
  cases bit old n.val <;> cases bit (s.reg .tstr) n.val <;> rfl

/-! ## The write-1 actions of `RCR2` -/

theorem and_not_of_bit {v m : Word} {i : Nat} (hm : ∀ j < 32, j ≠ i → m.getLsbD j = true)
    (h : bit v i = false) : v = v &&& m := by
  apply BitVec.eq_of_getLsbD_eq
  intro j hj
  rw [BitVec.getLsbD_and]
  by_cases hji : j = i
  · subst hji
    unfold bit at h
    rw [h]; rfl
  · rw [hm j hj hji, Bool.and_true]

theorem rcr2ResetAction_spec {s : State} (hs : s.cfg.separate = true) :
    rcr2ResetAction s = { s with regs := (rcr2ResetAction s).regs } ∧
    (rcr2ResetAction s).reg .rcr2 = s.reg .rcr2 &&& ~~~2 ∧
    (rcr2ResetAction s).reg .r64cnt = (if bit (s.reg .rcr2) 1 then 0 else s.reg .r64cnt) ∧
    ∀ i, i ∉ [s.cfg.index .rcr2, s.cfg.index .r64cnt] → (rcr2ResetAction s).cell i = s.cell i := by
  unfold rcr2ResetAction rcr2Reset
  by_cases h : bit (s.reg .rcr2) 1 = true
  · simp only [h, if_true]
    refine ⟨setReg_regsOnly (setReg_regsOnly rfl _ _) _ _, ?_, ?_, fun i hi => ?_⟩
    · simp only [setReg_reg, setReg_cfg, hs, if_true, reduceCtorEq, if_false]; rfl
    · simp only [setReg_reg, setReg_cfg, hs, if_true, reduceCtorEq, if_false]
    · simp only [List.mem_cons, List.not_mem_nil, or_false, not_or] at hi
      simp only [setReg_cell, setReg_cfg, hi, if_false]
  · rw [Bool.not_eq_true] at h
    simp only [h, Bool.false_eq_true, if_false]
    exact ⟨trivial, and_not_of_bit (by decide) h, trivial, fun _ _ => trivial⟩

theorem rcr2AdjAction_spec {s : State} (hs : s.cfg.separate = true) :
    rcr2AdjAction s = { s with regs := (rcr2AdjAction s).regs } ∧
    (rcr2AdjAction s).reg .rcr2 = s.reg .rcr2 &&& ~~~4 ∧
    (rcr2AdjAction s).reg .r64cnt = (if bit (s.reg .rcr2) 2 then 0 else s.reg .r64cnt) ∧
    (rcr2AdjAction s).calendar =
      (if bit (s.reg .rcr2) 2 then
        { (if 30 ≤ bcdValue (s.reg .rseccnt) then calMinute s.cfg s.calendar else s.calendar) with sec := 0 }
      else s.calendar) ∧
    ∀ i, i ∉ (Reg.rcr2 :: .r64cnt :: calendarRegs).map s.cfg.index → (rcr2AdjAction s).cell i = s.cell i := by
  unfold rcr2AdjAction rcr2Adj
  by_cases h : bit (s.reg .rcr2) 2 = true
  · simp only [h, if_true]
    have c1 : (s.setReg .r64cnt 0).calendar = s.calendar := by
      unfold State.calendar
      simp only [setReg_reg, hs, reduceCtorEq, if_false]
    generalize hs2 : (if 30 ≤ bcdValue ((s.setReg .r64cnt 0).reg .rseccnt) then
      incMinute (s.setReg .r64cnt 0)
      else s.setReg .r64cnt 0) = s2
    have cc : s2.calendar =
        (if 30 ≤ bcdValue (s.reg .rseccnt) then calMinute s.cfg s.calendar else s.calendar) := by
      rw [← hs2]
      simp only [setReg_reg, hs, reduceCtorEq, if_false]
      split
      · rw [incMinute_calendar (s := s.setReg .r64cnt 0) hs, c1]; rfl
      · exact c1
    have cg : s2.cfg = s.cfg := by
      rw [← hs2]
      split
      · exact (incMinute_only _).cfg
      · rfl
    have cr : ∀ r, r ∉ calendarRegs → s2.reg r = (s.setReg .r64cnt 0).reg r := by
      intro r hr
      rw [← hs2]
      split
      · exact (incMinute_only (s.setReg .r64cnt 0)).reg hs hr
      · rfl
    refine ⟨?_, ?_, ?_, ?_, fun i hi => ?_⟩
    · apply setReg_regsOnly
      apply setReg_regsOnly
      rw [← hs2]
      split
      · rw [(incMinute_only (s.setReg .r64cnt 0)).1]; rfl
      · exact setReg_regsOnly rfl _ _
    · simp only [setReg_reg, setReg_cfg, cg, hs, if_true, reduceCtorEq, if_false, cr .rcr2 (by decide)]; rfl
    · simp only [setReg_reg, setReg_cfg, cg, hs, if_true, reduceCtorEq, if_false, cr .r64cnt (by decide)]
    · rw [← cc]
      unfold State.calendar
      simp only [setReg_reg, setReg_cfg, cg, hs, if_true, reduceCtorEq, if_false]
    · simp only [List.map_cons, List.mem_cons, not_or] at hi
      have : i ≠ s.cfg.index .rseccnt := by
        rintro rfl
        exact hi.2.2 (List.mem_map_of_mem (by decide))
      simp only [setReg_cell, setReg_cfg, cg, hi, if_false, this]
      rw [← hs2]
      split
      · rw [(incMinute_only (s.setReg .r64cnt 0)).2 i hi.2.2, setReg_cell, if_neg hi.2.1]
      · rw [setReg_cell, if_neg hi.2.1]
  · rw [Bool.not_eq_true] at h
    simp only [h, Bool.false_eq_true, if_false]
    exact ⟨trivial, and_not_of_bit (by decide) h, trivial, trivial, fun _ _ => trivial⟩

/-! ## GPIO -/

theorem pairBits_getLsbD (n : Nat) (ctl : Word) (odd : Nat) {k : Nat} (hk : k < n) :
    (pairBits n ctl odd).getLsbD k = bit ctl (2 * k + odd) := by
  unfold pairBits
  have key : ∀ m ≤ n, ((List.range m).foldl
      (fun acc a => acc ||| (if bit ctl (2 * a + odd) then 1#n <<< a else 0)) (0 : BitVec n)).getLsbD k =
      (decide (k < m) && bit ctl (2 * k + odd)) := by
    intro m hm
    induction m with
    | zero => simp
    | succ m ih =>
      rw [List.range_succ, List.foldl_append, List.foldl_cons, List.foldl_nil, BitVec.getLsbD_or,
        ih (by omega)]
      by_cases hkm : k = m
      · subst hkm
        have : (1#n <<< k).getLsbD k = true := by simp [hk]
        cases hb : bit ctl (2 * k + odd) <;> simp [this]
      · have h1 : decide (k < m + 1) = decide (k < m) := by rw [decide_eq_decide]; omega
        have h2 : (if bit ctl (2 * m + odd) = true then 1#n <<< m else 0).getLsbD k = false := by
          split
          · rw [BitVec.getLsbD_shiftLeft]
            by_cases h3 : k < m
            · simp [h3]
            · have : k - m ≠ 0 := by omega
              simp [BitVec.getLsbD_one, this]
          · simp
        rw [h1, h2, Bool.or_false]
  rw [key n le_rfl]
  simp [hk]

theorem gpioDir_getLsbD (n : Nat) (ctl : Word) {k : Nat} (hk : k < n) :
    (gpioDir n ctl).getLsbD k = bit ctl (2 * k) := pairBits_getLsbD n ctl 0 hk

theorem gpioPup_getLsbD (n : Nat) (ctl : Word) {k : Nat} (hk : k < n) :
    (gpioPup n ctl).getLsbD k = (!bit ctl (2 * k + 1) && !bit ctl (2 * k)) := by
  unfold gpioPup
  rw [BitVec.getLsbD_not, BitVec.getLsbD_or, pairBits_getLsbD n ctl 1 hk, pairBits_getLsbD n ctl 0 hk]
  simp [hk]

end Sys2Proof.Machine
end

