-- ==== Sys2Proof/Laws/Frame.lean ====
section
/-! SUPPORT. What each shared operation may change: an effect names the cells, the channels, the timers and
the other parts that an operation may write, and one lemma per operation says that it stays within its
effect. -/
namespace Sys2Proof.Machine
open Sys2Proof

/-- The parts of the state that an operation may write. -/
structure Effect where
  cells : List Nat := []
  chans : List Chan := []
  timers : List TmuChan := []
  mem : Bool := false
  refresh : Bool := false
  rtc : Bool := false
  gpio : Bool := false
  requests : Bool := false
  prio : Bool := false

/-- From `s` to `t` nothing changes but what the effect names; what was output stays; the canonical forms of
the register file and of memory are kept. -/
structure Within (e : Effect) (s t : State) : Prop where
  cfg : t.cfg = s.cfg
  cpu : t.cpu = s.cpu
  now : t.now = s.now
  pins : t.pins16 = s.pins16 ∧ t.pins4 = s.pins4
  port : t.port = s.port
  draws : t.draws = s.draws
  events : t.events = s.events
  lines : t.intc.irlLine = s.intc.irlLine ∧ t.intc.irlLevel = s.intc.irlLevel ∧ t.intc.nmiLine = s.intc.nmiLine
  cells : ∀ i, i ∉ e.cells → t.cell i = s.cell i
  chans : ∀ n, n ∉ e.chans → t.chan n = s.chan n
  timers : ∀ n, n ∉ e.timers → t.timer n = s.timer n
  mem : e.mem = false → t.mem = s.mem
  refresh : e.refresh = false → t.refresh = s.refresh
  rtc : e.rtc = false → t.rtcDeadline = s.rtcDeadline
  gpio : e.gpio = false → t.gpio = s.gpio
  requests : e.requests = false → t.intc.requesting = s.intc.requesting ∧ t.intc.pending = s.intc.pending ∧
    t.intc.test = s.intc.test
  prio : e.prio = false → t.intc.prio = s.intc.prio
  outputs : ∃ new, t.outputs = s.outputs ++ new
  fileWf : Cells.wf s.regs = true → Cells.wf t.regs = true
  memWf : Memory.wf s.mem = true → Memory.wf t.mem = true

theorem within_self (e : Effect) (s : State) : Within e s s where
  cfg := rfl
  cpu := rfl
  now := rfl
  pins := ⟨rfl, rfl⟩
  port := rfl
  draws := rfl
  events := rfl
  lines := ⟨rfl, rfl, rfl⟩
  cells := fun _ _ => rfl
  chans := fun _ _ => rfl
  timers := fun _ _ => rfl
  mem := fun _ => rfl
  refresh := fun _ => rfl
  rtc := fun _ => rfl
  gpio := fun _ => rfl
  requests := fun _ => ⟨rfl, rfl, rfl⟩
  prio := fun _ => rfl
  outputs := ⟨[], by simp⟩
  fileWf := id
  memWf := id

/-- A register that the effect does not name keeps its value. -/
theorem within_reg {e : Effect} {s t : State} (h : Within e s t) {r : Reg} (hr : s.cfg.index r ∉ e.cells) :
    t.reg r = s.reg r := by
  unfold State.reg
  rw [h.cfg]
  exact h.cells _ hr

section Steps
variable {e : Effect} {s t : State} (h : Within e s t)
include h

theorem within_setCell {i : Nat} (hi : i ∈ e.cells) (v : Word) : Within e s (t.setCell i v) where
  fileWf := fun hw => setCell_wf (h.fileWf hw) i v
  memWf := h.memWf
  cfg := h.cfg
  cpu := h.cpu
  now := h.now
  pins := h.pins
  port := h.port
  draws := h.draws
  events := h.events
  lines := h.lines
  cells := fun j hj => by
    rw [setCell_cell, if_neg (by rintro rfl; exact hj hi)]; exact h.cells j hj
  chans := h.chans
  timers := h.timers
  mem := h.mem
  refresh := h.refresh
  rtc := h.rtc
  gpio := h.gpio
  requests := h.requests
  prio := h.prio
  outputs := h.outputs

theorem within_setReg {r : Reg} (hr : s.cfg.index r ∈ e.cells) (v : Word) : Within e s (t.setReg r v) :=
  within_setCell h (by rwa [h.cfg]) v

theorem within_setChan {n : Chan} (hn : n ∈ e.chans) (c : DmaChannel) : Within e s (t.setChan n c) where
  fileWf := h.fileWf
  memWf := h.memWf
  cfg := h.cfg
  cpu := h.cpu
  now := h.now
  pins := h.pins
  port := h.port
  draws := h.draws
  events := h.events
  lines := h.lines
  cells := h.cells
  chans := fun m hm => by
    rw [setChan_chan, if_neg (by rintro rfl; exact hm hn)]; exact h.chans m hm
  timers := h.timers
  mem := h.mem
  refresh := h.refresh
  rtc := h.rtc
  gpio := h.gpio
  requests := h.requests
  prio := h.prio
  outputs := h.outputs

theorem within_setTimer {n : TmuChan} (hn : n ∈ e.timers) (c : TmuChannel) : Within e s (t.setTimer n c) where
  fileWf := h.fileWf
  memWf := h.memWf
  cfg := h.cfg
  cpu := h.cpu
  now := h.now
  pins := h.pins
  port := h.port
  draws := h.draws
  events := h.events
  lines := h.lines
  cells := h.cells
  chans := h.chans
  timers := fun m hm => by
    rw [setTimer_timer, if_neg (by rintro rfl; exact hm hn)]; exact h.timers m hm
  mem := h.mem
  refresh := h.refresh
  rtc := h.rtc
  gpio := h.gpio
  requests := h.requests
  prio := h.prio
  outputs := h.outputs

theorem within_setRefresh (he : e.refresh = true) (r : Refresh) : Within e s (t.setRefresh r) :=
  { h with refresh := fun c => by rw [he] at c; cases c }

theorem within_setRtc (he : e.rtc = true) (d : Option Time) : Within e s (t.setRtc d) :=
  { h with rtc := fun c => by rw [he] at c; cases c }

theorem within_setGpio (he : e.gpio = true) (g : Gpio) : Within e s (t.setGpio g) :=
  { h with gpio := fun c => by rw [he] at c; cases c }

theorem within_setMem (he : e.mem = true) {m : Memory} (hm : Memory.wf t.mem = true → Memory.wf m = true) :
    Within e s (t.setMem m) :=
  { h with
    mem := fun c => by rw [he] at c; cases c
    memWf := fun hw => hm (h.memWf hw) }

theorem within_emit (o : Output) : Within e s (t.emit o) :=
  { h with
    outputs := by
      obtain ⟨new, hn⟩ := h.outputs
      exact ⟨new ++ [o], by show t.outputs ++ [o] = _; rw [hn, List.append_assoc]⟩ }

theorem within_emitDiag (d : Diag) : Within e s (t.emitDiag d) := within_emit h _

theorem within_recompute (he : e.requests = true) : Within e s (recompute t) :=
  { h with requests := fun c => by rw [he] at c; cases c }

theorem within_request (he : e.requests = true) (x : Source) : Within e s (requestSource x t) := by
  rw [requestSource_eq, requestSource_intc]
  exact { h with requests := fun c => by rw [he] at c; cases c }

theorem within_unrequest (he : e.requests = true) (x : Source) : Within e s (unrequestSource x t) := by
  rw [unrequestSource_eq, unrequestSource_intc]
  exact { h with requests := fun c => by rw [he] at c; cases c }

theorem within_setPrio (hp : e.prio = true) (p : Vector Prio 64) :
    Within e s (t.setIntc { t.intc with prio := p }) :=
  { h with prio := fun c => by rw [hp] at c; cases c }

theorem within_priorityWritten (he : e.requests = true) (hp : e.prio = true) (k : Fin 4) :
    Within e s (priorityWritten k t) :=
  within_recompute (within_setPrio h hp _) he

theorem within_storeMasked {i : Nat} (hi : i ∈ e.cells) (w : Width) (a d : Word) :
    Within e s (storeMasked i w a d t) := within_setCell h hi _

/-! ### The timers -/

theorem within_tmuArm {n : TmuChan} (hn : n ∈ e.timers) : Within e s (tmuArm n t) := by
  unfold tmuArm
  split <;> exact within_setTimer h hn _

theorem within_tstrChannel {n : TmuChan} (hn : n ∈ e.timers) (hc : s.cfg.index (.tcnt n) ∈ e.cells) (old : Word) :
    Within e s (tstrChannel old t n) := by
  unfold tstrChannel
  dsimp only
  split
  · exact within_tmuArm h hn
  · split
    · exact within_setTimer (within_setReg h hc _) hn _
    · exact h

theorem within_tcntWritten {n : TmuChan} (hn : n ∈ e.timers) : Within e s (tcntWritten n t) := by
  unfold tcntWritten
  split
  · exact within_tmuArm h hn
  · exact h

theorem within_tcrWritten {n : TmuChan} (hn : n ∈ e.timers) (hc : s.cfg.index (.tcnt n) ∈ e.cells)
    (he : e.requests = true) (old : State) : Within e s (tcrWritten n old t) := by
  unfold tcrWritten
  have h1 : Within e s (if tstrStr (t.reg .tstr) n then
      tmuArm n (if (old.timer n).deadline.isSome then t.setReg (.tcnt n) (tmuLive n old) else t) else t) := by
    split
    · apply within_tmuArm _ hn
      split
      · exact within_setReg h hc _
      · exact h
    · exact h
  dsimp only
  generalize (if tstrStr (t.reg .tstr) n then
      tmuArm n (if (old.timer n).deadline.isSome then t.setReg (.tcnt n) (tmuLive n old) else t) else t) = s1
    at h1 ⊢
  split
  · exact within_unrequest h1 he _
  · exact h1

theorem within_tmuExpire {n : TmuChan} (hn : n ∈ e.timers) (hc : s.cfg.index (.tcnt n) ∈ e.cells)
    (hr : s.cfg.index (.tcr n) ∈ e.cells) (he : e.requests = true) : Within e s (tmuExpire n t) := by
  unfold tmuExpire
  dsimp only
  have h1 := within_setReg (within_tmuArm (within_setReg h hc (t.reg (.tcor n))) hn) hr
    (putUnf ((tmuArm n (t.setReg (.tcnt n) (t.reg (.tcor n)))).reg (.tcr n)) true)
  split
  · exact within_request h1 he _
  · exact h1

theorem within_refArm (he : e.refresh = true) : Within e s (refArm t) := within_setRefresh h he _

theorem within_rtcsrWritten (he : e.refresh = true) (h1 : s.cfg.index .rtcsr ∈ e.cells)
    (h2 : s.cfg.index .rtcnt ∈ e.cells) (old : State) : Within e s (rtcsrWritten old t) := by
  unfold rtcsrWritten
  dsimp only
  have h3 : Within e s (if refActive old then
      (t.setReg .rtcsr (t.reg .rtcsr &&& 0xFF)).setReg .rtcnt (refLive old)
      else t.setReg .rtcsr (t.reg .rtcsr &&& 0xFF)) := by
    split
    · exact within_setReg (within_setReg h h1 _) h2 _
    · exact within_setReg h h1 _
  generalize (if refActive old then
      (t.setReg .rtcsr (t.reg .rtcsr &&& 0xFF)).setReg .rtcnt (refLive old)
      else t.setReg .rtcsr (t.reg .rtcsr &&& 0xFF)) = s2 at h3 ⊢
  split
  · exact within_refArm h3 he
  · exact within_setRefresh h3 he _

theorem within_rtcntWritten (he : e.refresh = true) (h2 : s.cfg.index .rtcnt ∈ e.cells) :
    Within e s (rtcntWritten t) := by
  unfold rtcntWritten
  dsimp only
  split
  · exact within_refArm (within_setReg h h2 _) he
  · exact within_setReg h h2 _

theorem within_rtcorWritten (he : e.refresh = true) (h1 : s.cfg.index .rtcor ∈ e.cells)
    (h2 : s.cfg.index .rtcnt ∈ e.cells) : Within e s (rtcorWritten t) := by
  unfold rtcorWritten
  dsimp only
  split
  · exact within_refArm (within_setReg (within_setReg h h1 _) h2 _) he
  · exact within_setReg h h1 _

theorem within_rfcrWritten (h1 : s.cfg.index .rfcr ∈ e.cells) : Within e s (rfcrWritten t) :=
  within_setReg h h1 _

theorem within_refExpire (he : e.refresh = true) (h1 : s.cfg.index .rtcnt ∈ e.cells)
    (h2 : s.cfg.index .rtcsr ∈ e.cells) (h3 : s.cfg.index .rfcr ∈ e.cells) : Within e s (refExpire t) := by
  unfold refExpire refCount
  dsimp only
  have h4 := within_setReg (within_refArm (within_setReg h h1 0) he) h2
    (putCmf ((refArm (t.setReg .rtcnt 0)).reg .rtcsr) true)
  split
  · split
    · exact within_setReg (within_setReg (within_setReg h4 h3 _) h3 0) h2 _
    · exact within_setReg h4 h3 _
  · exact h4

omit h in
theorem within_kept (hc : ∀ r ∈ calendarRegs, s.cfg.index r ∈ e.cells) : KeptByCalendar (Within e s) :=
  fun r hr v _ hu => within_setReg hu (hc r hr) v

theorem within_rtcExpire (he : e.rtc = true) (h1 : s.cfg.index .r64cnt ∈ e.cells) (h2 : s.cfg.index .rcr1 ∈ e.cells)
    (hc : ∀ r ∈ calendarRegs, s.cfg.index r ∈ e.cells) : Within e s (rtcExpire t) := by
  unfold rtcExpire
  dsimp only
  have h3 := within_setReg (within_setRtc h he (t.rtcDeadline.map (· + t.cfg.cycPerRtcTick))) h1
    (((t.setRtc (t.rtcDeadline.map (· + t.cfg.cycPerRtcTick))).reg .r64cnt + 1) &&& 0x7F)
  split
  · exact keeps_incSecond (within_kept hc) (within_setReg h3 h2 _)
  · exact h3

theorem within_rcr2Written (he : e.rtc = true) (h1 : s.cfg.index .r64cnt ∈ e.cells)
    (h2 : s.cfg.index .rcr2 ∈ e.cells) (hc : ∀ r ∈ calendarRegs, s.cfg.index r ∈ e.cells) (old : State) :
    Within e s (rcr2Written old t) := by
  have hsec : s.cfg.index .rseccnt ∈ e.cells := hc _ (by simp [calendarRegs])
  have reset : ∀ {u : State}, Within e s u → Within e s (rcr2ResetAction u) := by
    intro u hu
    unfold rcr2ResetAction
    split
    · exact within_setReg (within_setReg hu h1 _) h2 _
    · exact hu
  have adj : ∀ {u : State}, Within e s u → Within e s (rcr2AdjAction u) := by
    intro u hu
    unfold rcr2AdjAction
    split
    · refine within_setReg (within_setReg ?_ hsec _) h2 _
      split
      · exact keeps_incMinute (within_kept hc) (within_setReg hu h1 _)
      · exact within_setReg hu h1 _
    · exact hu
  unfold rcr2Written rcr2StartStop
  have h3 := adj (reset (within_setReg h h2 (t.reg .rcr2 &&& 0xFF)))
  split
  · split
    · exact h3
    · exact within_setRtc h3 he _
  · exact within_setRtc h3 he _

/-! ### The GPIO glue -/

theorem within_gpioPush16 : Within e s (gpioPush16 t) := by
  unfold gpioPush16
  split
  · exact within_emit h _
  · exact h

theorem within_gpioPush4 : Within e s (gpioPush4 t) := by
  unfold gpioPush4
  split
  · exact within_emit h _
  · exact h

theorem within_pctraWritten (he : e.gpio = true) : Within e s (pctraWritten t) :=
  within_gpioPush16 (within_setGpio h he _)

theorem within_pctrbWritten (he : e.gpio = true) : Within e s (pctrbWritten t) :=
  within_gpioPush4 (within_setGpio h he _)

/-! ### The DMA controller -/

/-- All that a start check can do: the channel, memory, and under `DMA_WRITEBACK_ADDR` its two address
registers. -/
theorem within_checkChannel {n : Chan} {u : State} (hn : n ∈ e.chans) (hm : e.mem = true)
    (h1 : t.cfg.writebackAddr = true → s.cfg.index (.sar n) ∈ e.cells ∧ s.cfg.index (.dar n) ∈ e.cells)
    (hu : checkChannel n t = .next u) : Within e s u := by
  unfold checkChannel at hu
  dsimp only at hu
  split at hu
  · split at hu
    · cases hu; exact h
    · split at hu
      · cases hu; exact h
      · split at hu
        · unfold transfer transferFrom at hu
          cases hs : dmaSetup t n with
          | error d => rw [hs] at hu; cases hu; exact within_emitDiag h _
          | ok p =>
            rw [hs] at hu
            dsimp only at hu
            split at hu
            · rename_i hx; split at hx <;> cases hx
            · cases hu
            · rename_i hx
              split at hx
              · cases hx
              · cases hx
                cases hu
                rename_i r hr
                have h2 : Within e s ((armChannel .burst p.count t n).setMem r.mem) :=
                  within_setMem (within_setChan h hn _) hm (copyBlock_wf hr)
                unfold writeBack
                split
                · rename_i hw
                  obtain ⟨h3, h4⟩ := h1 hw
                  exact within_setReg (within_setReg h2 h3 _) h4 _
                · exact h2
        · split at hu
          · cases hu
            unfold transferDevice
            split
            · exact within_emitDiag h _
            · exact within_emit (within_setChan h hn _) _
          · cases hu; exact h
  · split at hu
    · cases hu; exact within_emitDiag (within_setChan h hn _) _
    · cases hu; exact h

theorem within_dmaComplete {n : Chan} (hn : n ∈ e.chans) (h1 : s.cfg.index (.dmatcr n) ∈ e.cells)
    (h2 : s.cfg.index (.chcr n) ∈ e.cells) (he : e.requests = true) : Within e s (dmaComplete n t) := by
  unfold dmaComplete
  dsimp only
  have h3 := within_setReg (within_setReg (within_setChan h hn (t.chan n).cancelled) h1 0) h2
    (putTe (((t.setChan n (t.chan n).cancelled).setReg (.dmatcr n) 0).reg (.chcr n)) true)
  split
  · exact within_request h3 he _
  · exact h3

theorem within_nmiCancel {n : Chan} (hn : n ∈ e.chans) : Within e s (nmiCancel t n) := by
  unfold nmiCancel
  split
  · exact within_emitDiag (within_setChan h hn _) _
  · exact h

theorem within_dmacNmi (hn : ∀ n, n ∈ e.chans) (h1 : s.cfg.index .dmaor ∈ e.cells) : Within e s (dmacNmi t) :=
  within_nmiCancel (within_nmiCancel (within_nmiCancel (within_nmiCancel (within_setReg h h1 _)
    (hn 0)) (hn 1)) (hn 2)) (hn 3)

end Steps

/-- All that the four checks can do. -/
theorem within_checkAll {e : Effect} {s t u : State} (h : Within e s t) (hn : ∀ n, n ∈ e.chans)
    (hm : e.mem = true)
    (h1 : s.cfg.writebackAddr = true → ∀ n, s.cfg.index (.sar n) ∈ e.cells ∧ s.cfg.index (.dar n) ∈ e.cells)
    (hu : checkAll t = .next u) : Within e s u := by
  have step : ∀ {v w : State} {n : Chan}, Within e s v → checkChannel n v = .next w → Within e s w := by
    intro v w n hv hw
    exact within_checkChannel hv (hn n) hm (fun c => h1 (hv.cfg ▸ c) n) hw
  have inv : ∀ {r : Result} {f : State → Result} {w : State}, andThen r f = .next w →
      ∃ v, r = .next v ∧ f v = .next w := by
    intro r f w hw
    cases r with
    | next v => exact ⟨v, rfl, hw⟩
    | fault x => cases hw
    | refused x => cases hw
  unfold checkAll at hu
  obtain ⟨v0, h2, hu⟩ := inv hu
  obtain ⟨v1, h3, hu⟩ := inv hu
  obtain ⟨v2, h4, hu⟩ := inv hu
  exact step (step (step (step h h2) h3) h4) hu

/-! ## The effect of a write's handler -/

/-- What the handler of a named register's write may write, beside its own register (43_regfile R295). -/
def handlerEffect (cfg : Config) (r : Reg) : Effect :=
  { cells := (r :: handlerRegs cfg r).map cfg.index
    chans := match r with
      | .sar n | .dar n | .dmatcr n | .chcr n => [n]
      | .dmaor => [0, 1, 2, 3]
      | _ => []
    timers := match r with
      | .tstr => [0, 1, 2]
      | .tcnt n | .tcr n => [n]
      | _ => []
    mem := match r with
      | .sar _ | .dar _ | .dmatcr _ | .chcr _ | .dmaor => true
      | _ => false
    refresh := match r with
      | .rtcsr | .rtcnt | .rtcor => true
      | _ => false
    rtc := match r with
      | .rcr2 => true
      | _ => false
    gpio := match r with
      | .pctra | .pctrb => true
      | _ => false
    requests := match r with
      | .icr | .ipr _ | .tcr _ => true
      | _ => false
    prio := match r with
      | .ipr _ => true
      | _ => false }

/-- A write of a named register that has a handler stays within the handler's effect. -/
theorem within_writeHandler {r : Reg} {s t : State} {w : Width} {a d : Word}
    (h : writeHandler r s (storeMasked (s.cfg.index r) w a d s) = .next t) : Within (handlerEffect s.cfg r) s t := by
  have h0 : Within (handlerEffect s.cfg r) s (storeMasked (s.cfg.index r) w a d s) :=
    within_storeMasked (within_self _ s) (by simp [handlerEffect]) w a d
  have hwb : (storeMasked (s.cfg.index r) w a d s).cfg.writebackAddr = s.cfg.writebackAddr := rfl
  cases r with
  | icr => cases h; exact within_recompute h0 rfl
  | ipr k => cases h; exact within_priorityWritten h0 rfl rfl k
  | sar n =>
    exact within_checkChannel h0 (by simp [handlerEffect]) rfl
      (fun c => by rw [hwb] at c; simp [handlerEffect, handlerRegs, c]) h
  | dar n =>
    exact within_checkChannel h0 (by simp [handlerEffect]) rfl
      (fun c => by rw [hwb] at c; simp [handlerEffect, handlerRegs, c]) h
  | dmatcr n =>
    exact within_checkChannel h0 (by simp [handlerEffect]) rfl
      (fun c => by rw [hwb] at c; simp [handlerEffect, handlerRegs, c]) h
  | chcr n =>
    exact within_checkChannel h0 (by simp [handlerEffect]) rfl
      (fun c => by rw [hwb] at c; simp [handlerEffect, handlerRegs, c]) h
  | dmaor =>
    refine within_checkAll (within_setReg h0 (by simp [handlerEffect]) _)
      (fun n => by simp only [handlerEffect]; revert n; decide) rfl (fun c n => ?_) h
    simp only [handlerEffect, handlerRegs, c, if_true]
    exact ⟨List.mem_map_of_mem (by revert n; decide), List.mem_map_of_mem (by revert n; decide)⟩
  | rtcsr =>
    cases h
    exact within_rtcsrWritten h0 rfl (by simp [handlerEffect]) (by simp [handlerEffect, handlerRegs]) s
  | rtcnt => cases h; exact within_rtcntWritten h0 rfl (by simp [handlerEffect])
  | rtcor => cases h; exact within_rtcorWritten h0 rfl (by simp [handlerEffect]) (by simp [handlerEffect, handlerRegs])
  | rfcr => cases h; exact within_rfcrWritten h0 (by simp [handlerEffect])
  | pctra => cases h; exact within_pctraWritten h0 rfl
  | pdtra => cases h; exact within_gpioPush16 h0
  | pctrb => cases h; exact within_pctrbWritten h0 rfl
  | pdtrb => cases h; exact within_gpioPush4 h0
  | rcr2 =>
    cases h
    exact within_rcr2Written h0 rfl (by simp [handlerEffect, handlerRegs]) (by simp [handlerEffect])
      (by intro r hr; simp only [handlerEffect, handlerRegs, List.map_cons, List.mem_cons]
          exact .inr (.inr (List.mem_map_of_mem hr))) s
  | tstr =>
    cases h
    unfold tstrWritten
    have hc : ∀ n : TmuChan, s.cfg.index (.tcnt n) ∈ (handlerEffect s.cfg .tstr).cells := by
      intro n; simp only [handlerEffect, handlerRegs]; exact List.mem_map_of_mem (by revert n; decide)
    have hn : ∀ n : TmuChan, n ∈ (handlerEffect s.cfg .tstr).timers := fun n => by
      simp only [handlerEffect]; revert n; decide
    exact within_tstrChannel (within_tstrChannel (within_tstrChannel h0 (hn 0) (hc 0) _) (hn 1) (hc 1) _)
      (hn 2) (hc 2) _
  | tcnt n => cases h; exact within_tcntWritten h0 (by simp [handlerEffect])
  | tcr n =>
    cases h
    exact within_tcrWritten h0 (by simp [handlerEffect]) (by simp [handlerEffect, handlerRegs]) rfl s
  | _ => cases h; exact h0

/-! ## The effect of an operation -/

/-- What a bus operation may write. -/
def busEffect (cfg : Config) (b : BusAccess) : Effect :=
  if b.write = false then {}
  else match b.target with
    | none => { cells := [regIndex cfg b.addr] }
    | some .pvr | some .prr | some .rsvz => {}
    | some r => handlerEffect cfg r

/-- A bus operation stays within its effect. -/
theorem within_busAccess {i : Instr} {b : BusAccess} (h : i.busAccess = some b) {s t : State}
    (hx : exec i s = .next t) : Within (busEffect s.cfg b) s t := by
  unfold busEffect
  rcases busAccess_next h hx with ⟨h1, v, h2⟩ | ⟨h1, h2, h3⟩ | ⟨h1, h2, h3⟩ | ⟨h1, r, h2, h3, h4, h5, h6⟩
  · rw [if_pos h1, h2]
    exact within_emit (within_self _ _) _
  · rw [if_neg (by simp [h1]), h2, h3]
    exact within_emitDiag (within_storeMasked (within_self _ _) (by simp) _ _ _) _
  · rw [if_neg (by simp [h1]), h3]
    rcases h2 with h2 | h2 | h2 <;> rw [h2] <;> exact within_self _ _
  · rw [if_neg (by simp [h1]), h2]
    have := within_writeHandler h6
    cases r <;> first | exact this | contradiction

theorem busEffect_chans {i : Instr} {b : BusAccess} (h : i.busAccess = some b) (cfg : Config) :
    (busEffect cfg b).chans = i.checks := by
  cases i <;> first | (cases h; done) | (cases h; rfl)

theorem busEffect_mem {i : Instr} {b : BusAccess} (h : i.busAccess = some b) (cfg : Config) :
    (busEffect cfg b).mem = decide (i.checks ≠ []) := by
  cases i <;> first | (cases h; done) | (cases h; rfl)

theorem busEffect_cells {i : Instr} {b : BusAccess} (h : i.busAccess = some b) (cfg : Config) :
    (busEffect cfg b).cells = cellsWritten cfg i := by
  cases i <;> first | (cases h; done) | (cases h; rfl)

/-- What a timer's expiry may write. -/
def expiryEffect (cfg : Config) (t : TimerId) : Effect :=
  { cells := (expiryRegs t).map cfg.index
    chans := match t with
      | .dma n => [n]
      | _ => []
    timers := match t with
      | .tmu n => [n]
      | _ => []
    refresh := match t with
      | .ref => true
      | _ => false
    rtc := match t with
      | .rtc => true
      | _ => false
    requests := match t with
      | .dma _ | .tmu _ => true
      | _ => false }

/-- An expiry stays within its effect. -/
theorem within_expire (x : TimerId) (s : State) : Within (expiryEffect s.cfg x) s (expire x s) := by
  have h0 := within_self (expiryEffect s.cfg x) s
  cases x with
  | dma n =>
    exact within_dmaComplete (n := n) h0 (by simp [expiryEffect]) (by simp [expiryEffect, expiryRegs])
      (by simp [expiryEffect, expiryRegs]) rfl
  | tmu n =>
    exact within_tmuExpire (n := n) h0 (by simp [expiryEffect]) (by simp [expiryEffect, expiryRegs])
      (by simp [expiryEffect, expiryRegs]) rfl
  | ref =>
    exact within_refExpire h0 rfl (by simp [expiryEffect, expiryRegs])
      (by simp [expiryEffect, expiryRegs]) (by simp [expiryEffect, expiryRegs])
  | rtc =>
    refine within_rtcExpire h0 rfl (by simp [expiryEffect, expiryRegs])
      (by simp [expiryEffect, expiryRegs]) (fun r hr => ?_)
    simp only [expiryEffect, expiryRegs, List.map_cons, List.mem_cons]
    exact .inr (.inr (List.mem_map_of_mem hr))

/-- If `FIRE` answers a state, the timer was due and this is its expiry. -/
theorem fire_next {x : TimerId} {s t : State} (h : exec (.fire x) s = .next t) :
    timerDue x s = true ∧ t = expire x s := by
  change execFire x s = _ at h
  unfold execFire at h
  split at h
  · exact ⟨‹_›, by simpa using h.symm⟩
  · cases h

/-- If `ADVANCE` answers a state, it was enabled and only time moved. -/
theorem advance_next {dt : Word} {s t : State} (h : exec (.advance dt) s = .next t) :
    advanceEnabled dt s = true ∧ t = s.setNow (s.now + dt.toNat) := by
  change execAdvance dt s = _ at h
  unfold execAdvance at h
  split at h
  · exact ⟨‹_›, by simpa using h.symm⟩
  · cases h

/-- All that `RAISE` can do: the CPU context, the controller's requests and flags, `INTEVT`, outputs. -/
theorem raiseSource_frame (x : Source) (s : State) :
    raiseSource x s = { s with
      cpu := (raiseSource x s).cpu
      intc := { s.intc with
        requesting := (raiseSource x s).intc.requesting
        pending := (raiseSource x s).intc.pending
        test := (raiseSource x s).intc.test }
      regs := (raiseSource x s).regs
      outputs := (raiseSource x s).outputs } := by
  by_cases h : Accepts s x
  · obtain ⟨i, he, -, hi⟩ := raiseSource_accepted h
    have h2 : i = { s.intc with requesting := i.requesting, pending := i.pending, test := i.test } := by
      rw [hi]
      split
      · rw [unrequestSource_intc]
      · rfl
    rw [he]
    show ({ s with regs := _, outputs := _, intc := i, cpu := _ } : State) = { s with regs := _, outputs := _, intc := _, cpu := _ }
    rw [h2]
  · rw [raiseSource_declined h]

/-- `BOUNDARY` does nothing, or raises a source. -/
theorem boundary_cases (d : Bool) (s : State) : boundary d s = s ∨ ∃ x, boundary d s = raiseSource x s := by
  unfold boundary
  split
  · split
    · exact .inl rfl
    · exact .inr ⟨_, rfl⟩
  · exact .inl rfl

/-- All that `SET_IRL` can do. -/
theorem setIrl_next {k : Fin 4} {v : Bool} {s t : State} (h : exec (.setIrl k v) s = .next t) :
    t = { s with intc := { s.intc with
      irlLine := t.intc.irlLine, requesting := t.intc.requesting
      pending := t.intc.pending, test := t.intc.test } } := by
  change execSetIrl k v s = _ at h
  unfold execSetIrl at h
  split at h
  · cases h; rfl
  · split at h
    · cases h; rfl
    · cases h
      split
      · rw [requestSource_eq, requestSource_intc]; rfl
      · rw [unrequestSource_eq, unrequestSource_intc]; rfl

/-- All that `SET_IRLN` can do. -/
theorem setIrln_next {v : Word} {s t : State} (h : exec (.setIrln v) s = .next t) :
    t = { s with
      outputs := t.outputs
      intc := { s.intc with
        irlLevel := t.intc.irlLevel, requesting := t.intc.requesting
        pending := t.intc.pending, test := t.intc.test } } ∧
    ∃ new, t.outputs = s.outputs ++ new := by
  have fold : ∀ (l : List (Fin 15)) (u : State),
      l.foldl (fun s k => unrequestSource (srcIrll k) s) u = u.setIntc { u.intc with
        requesting := (l.foldl (fun s k => unrequestSource (srcIrll k) s) u).intc.requesting
        pending := (l.foldl (fun s k => unrequestSource (srcIrll k) s) u).intc.pending
        test := (l.foldl (fun s k => unrequestSource (srcIrll k) s) u).intc.test } := by
    intro l
    induction l with
    | nil => intro u; rfl
    | cons k l ih =>
      intro u
      rw [List.foldl_cons, ih, unrequestSource_eq, unrequestSource_intc]; rfl
  change execSetIrln v s = _ at h
  unfold execSetIrln at h
  split at h
  · cases h; exact ⟨rfl, [], by simp⟩
  · split at h
    · cases h; exact ⟨rfl, _, rfl⟩
    · cases h
      unfold irlLevelShown
      dsimp only
      have hf := fold irllValues (s.setIntc { s.intc with irlLevel := field v 0 4 })
      generalize irllValues.foldl (fun s k => unrequestSource (srcIrll k) s)
        (s.setIntc { s.intc with irlLevel := field v 0 4 }) = u at hf ⊢
      generalize u.intc.requesting = a, u.intc.pending = b, u.intc.test = c at hf
      subst hf
      split
      · rw [requestSource_eq, requestSource_intc]; exact ⟨rfl, [], by simp⟩
      · exact ⟨rfl, [], by simp⟩

/-- All that `SET_NMI` can do: a release records the line; an assertion requests source 16, sets
`DMAOR.NMIF` and cancels channels. -/
theorem setNmi_next {v : Bool} {s t : State} (h : exec (.setNmi v) s = .next t) :
    (t = s ∨ t = s.setIntc { s.intc with nmiLine := v }) ∨
    (v = true ∧ t = dmacNmi (requestSource srcNmi (s.setIntc { s.intc with nmiLine := true }))) := by
  change execSetNmi v s = _ at h
  unfold execSetNmi at h
  split at h
  · cases h; exact .inl (.inl rfl)
  · cases v with
    | false => cases h; exact .inl (.inr rfl)
    | true => cases h; exact .inr ⟨rfl, rfl⟩

/-- `SET_NMI` stays within this effect, but for the line. -/
theorem within_setNmi {v : Bool} {s t : State} (h : exec (.setNmi v) s = .next t) :
    Within { chans := if v then [0, 1, 2, 3] else [], cells := [s.cfg.index .dmaor], requests := true }
      (s.setIntc { s.intc with nmiLine := t.intc.nmiLine }) t := by
  rcases setNmi_next h with (rfl | rfl) | ⟨rfl, rfl⟩
  · exact within_self _ _
  · exact within_self _ _
  · have h1 : Within { chans := [0, 1, 2, 3], cells := [s.cfg.index .dmaor], requests := true }
        (s.setIntc { s.intc with nmiLine := true })
        (dmacNmi (requestSource srcNmi (s.setIntc { s.intc with nmiLine := true }))) :=
      within_dmacNmi (within_request (within_self _ _) rfl _) (by intro n; fin_cases n <;> simp) (by simp)
    rw [h1.lines.2.2]
    exact h1

/-- All that `DMA_DATA` can do. -/
theorem pump_next {n : Chan} {s t : State} (h : exec (.dmaData n) s = .next t) :
    t = { s with
      dma := t.dma, mem := t.mem, outputs := t.outputs
      port := { s.port with buffer := t.port.buffer } } ∧
    (∀ m, m ≠ n → t.chan m = s.chan m) ∧ ∃ r, t.outputs = s.outputs ++ [.pumpResult n r] := by
  change pump n s = _ at h
  unfold pump at h
  dsimp only at h
  split at h
  · cases h; exact ⟨rfl, fun _ _ => rfl, _, rfl⟩
  · split at h
    · unfold pumpToDevice at h
      dsimp only at h
      split at h
      · cases h
      · cases h
        exact ⟨rfl, fun m hm => by rw [emit_chan, setChan_chan, if_neg hm]; rfl, _, rfl⟩
    · unfold pumpToMemory at h
      dsimp only at h
      split at h
      · cases h
      · cases h
        exact ⟨rfl, fun m hm => by rw [emit_chan, setChan_chan, if_neg hm]; rfl, _, rfl⟩

/-- The read-back and write-through change the two address registers and the record. -/
theorem ddtAddresses_frame (n : Chan) (s : State) :
    ddtAddresses n s = { s with
      regs := (ddtAddresses n s).regs
      port := { s.port with record := { s.port.record with
        source := (ddtAddresses n s).port.record.source
        destination := (ddtAddresses n s).port.record.destination } } } ∧
    ∀ i, i ≠ s.cfg.index (.sar n) → i ≠ s.cfg.index (.dar n) → (ddtAddresses n s).cell i = s.cell i := by
  unfold ddtAddresses
  dsimp only
  cases s.port.record.wrSrc <;> cases s.port.record.wrDst
  · exact ⟨rfl, fun i _ _ => rfl⟩
  · refine ⟨rfl, fun i _ h2 => ?_⟩
    show State.cell (State.setReg _ _ _) i = _
    rw [setReg_cell]; exact if_neg h2
  · refine ⟨rfl, fun i h1 _ => ?_⟩
    show State.cell (State.setReg _ _ _) i = _
    rw [setReg_cell, if_neg h1]
  · refine ⟨rfl, fun i h1 h2 => ?_⟩
    show State.cell (State.setReg _ _ _) i = _
    rw [setReg_cell]
    refine (if_neg h2).trans ?_
    show State.cell (State.setReg _ _ _) i = _
    rw [setReg_cell, if_neg h1]

/-- All that a transfer without a timer can do. -/
theorem transferFrom_noTimer (n : Chan) (src dst : Word) (s : State) :
    match transferFrom n .noTimer src dst s with
    | .failed t => ∃ d, t = s.emitDiag d
    | .intoWindow => True
    | .moved t _ _ => t = s.setMem t.mem := by
  unfold transferFrom
  cases dmaSetup s n with
  | error d => exact ⟨d, rfl⟩
  | ok p =>
    dsimp only
    cases copyBlock s.cfg s.mem src dst p.count p.size p.incs p.incd with
    | none => trivial
    | some r => rfl

/-- All that `DMA_DDT` can do. -/
theorem ddt_next {n : Chan} {s t : State} (h : exec (.dmaDdt n) s = .next t) :
    t = { s with
      regs := t.regs, mem := t.mem, outputs := t.outputs, draws := t.draws
      port := { s.port with record := t.port.record } } ∧
    (∀ i, i ≠ s.cfg.index (.sar n) → i ≠ s.cfg.index (.dar n) → t.cell i = s.cell i) ∧
    ∃ new, t.outputs = s.outputs ++ new := by
  have raw : ∀ {r : Result}, r = .next t →
      (r = .next s ∨ (∃ z cnt, r = rawToHost z cnt s) ∨ ∃ z cnt, r = rawToMemory z cnt s) →
      t = { s with
        regs := t.regs, mem := t.mem, outputs := t.outputs, draws := t.draws
        port := { s.port with record := t.port.record } } ∧
      (∀ i, i ≠ s.cfg.index (.sar n) → i ≠ s.cfg.index (.dar n) → t.cell i = s.cell i) ∧
      ∃ new, t.outputs = s.outputs ++ new := by
    rintro r hr (h1 | ⟨z, cnt, h1⟩ | ⟨z, cnt, h1⟩)
    · rw [h1] at hr; cases hr; exact ⟨rfl, fun _ _ _ => rfl, [], by simp⟩
    · rw [h1] at hr
      unfold rawToHost at hr
      dsimp only at hr
      split at hr
      · cases hr
      · cases hr; exact ⟨rfl, fun _ _ _ => rfl, [], by simp [State.setRecord]⟩
    · rw [h1] at hr
      unfold rawToMemory at hr
      dsimp only at hr
      split at hr
      · cases hr
      · cases hr; exact ⟨rfl, fun _ _ _ => rfl, [], by simp [State.setRecord]⟩
  change ddt n s = _ at h
  unfold ddt at h
  split at h
  · cases h; exact ⟨rfl, fun _ _ _ => rfl, [], by simp⟩
  · split at h
    · refine raw h ?_
      unfold ddtRaw
      dsimp only
      split
      · split
        · exact .inr (.inl ⟨_, _, rfl⟩)
        · exact .inr (.inr ⟨_, _, rfl⟩)
      · split
        · split
          · exact .inr (.inl ⟨_, _, rfl⟩)
          · exact .inr (.inr ⟨_, _, rfl⟩)
        · exact .inl rfl
    · unfold ddtTransfer at h
      dsimp only at h
      obtain ⟨ha, hc⟩ := ddtAddresses_frame n s
      generalize ddtAddresses n s = s1 at h ha hc
      have ho : s1.outputs = s.outputs := by rw [ha]
      split at h
      · cases h
        exact ⟨by rw [ha], hc, [], by simp [ho]⟩
      · have ht := transferFrom_noTimer n s1.port.record.source s1.port.record.destination s1
        split at h
        · rename_i s' heq
          rw [heq] at ht
          obtain ⟨d, hd⟩ := ht
          cases h
          rw [hd]
          exact ⟨by rw [ha]; rfl, hc, [.diag d], by show s1.outputs ++ _ = _; rw [ho]⟩
        · cases h
        · rename_i s' src dst heq
          rw [heq] at ht
          cases h
          change s' = _ at ht
          rw [ht]
          exact ⟨by rw [ha]; rfl, hc, [], by show s1.outputs = _; simp [ho]⟩

end Sys2Proof.Machine
end

