-- ==== Sys2Proof/Laws/PerInstr.lean ====
section
/-! SUPPORT. Per operation: its word carries the fixed bits of its row of spec/opcode_table.json. -/
namespace Sys2Proof.Laws.TableRow
open Sys2Proof

/-- The fixed bits of a row of spec/opcode_table.json: its mask and its match. -/
inductive Row where
  | port (mask pattern : BitVec 40)
  | bus (mask pattern : BitVec 67)
  deriving DecidableEq, Repr

/-- The word has the row's fixed bits. -/
def Row.covers (r : Row) (w : RawOp) : Prop :=
  match r, w with
  | .port m p, .p w => w &&& m = p
  | .bus m p, .b w => w &&& m = p
  | _, _ => False

/-- The row of each operation, as the table has it. -/
def row (i : Instr) : Row :=
  match i with
  | .request _ => .port 0xFF00000000 0x0100000000
  | .unrequest _ => .port 0xFF00000000 0x0200000000
  | .recompute => .port 0xFF00000000 0x0300000000
  | .boundary _ => .port 0xFF00000000 0x0400000000
  | .raise _ => .port 0xFF00000000 0x0500000000
  | .setIrl _ _ => .port 0xFF00000000 0x1000000000
  | .setIrln _ => .port 0xFF00000000 0x1100000000
  | .setNmi _ => .port 0xFF00000000 0x1200000000
  | .dmaData _ => .port 0xFF00000000 0x2000000000
  | .dmaDdt _ => .port 0xFF00000000 0x2100000000
  | .advance _ => .port 0xFF00000000 0x3000000000
  | .fire _ => .port 0xFF00000000 0x3100000000
  | .reset => .port 0xFF00000000 0x3F00000000
  | .wrIntevt _ _ _ => .bus 0x401FE00FC00000000 0x40100002800000000
  | .rdIntevt _ _ => .bus 0x401FE00FC00000000 0x00100002800000000
  | .wrPvr _ _ _ => .bus 0x401FE00FC00000000 0x40100003000000000
  | .rdPvr _ _ => .bus 0x401FE00FC00000000 0x00100003000000000
  | .wrPrr _ _ _ => .bus 0x401FE00FC00000000 0x40100004400000000
  | .rdPrr _ _ => .bus 0x401FE00FC00000000 0x00100004400000000
  | .wrIcr _ _ _ => .bus 0x401FE00FC00000000 0x401D0000000000000
  | .rdIcr _ _ => .bus 0x401FE00FC00000000 0x001D0000000000000
  | .wrIpra _ _ _ => .bus 0x401FE00FC00000000 0x401D0000400000000
  | .rdIpra _ _ => .bus 0x401FE00FC00000000 0x001D0000400000000
  | .wrIprb _ _ _ => .bus 0x401FE00FC00000000 0x401D0000800000000
  | .rdIprb _ _ => .bus 0x401FE00FC00000000 0x001D0000800000000
  | .wrIprc _ _ _ => .bus 0x401FE00FC00000000 0x401D0000C00000000
  | .rdIprc _ _ => .bus 0x401FE00FC00000000 0x001D0000C00000000
  | .wrIprd _ _ _ => .bus 0x401FE00FC00000000 0x401D0001000000000
  | .rdIprd _ _ => .bus 0x401FE00FC00000000 0x001D0001000000000
  | .wrRsvz _ _ _ => .bus 0x401FE00FC00000000 0x401D0001400000000
  | .rdRsvz _ _ => .bus 0x401FE00FC00000000 0x001D0001400000000
  | .wrSar0 _ _ _ => .bus 0x401FE00FC00000000 0x401A0000000000000
  | .rdSar0 _ _ => .bus 0x401FE00FC00000000 0x001A0000000000000
  | .wrDar0 _ _ _ => .bus 0x401FE00FC00000000 0x401A0000400000000
  | .rdDar0 _ _ => .bus 0x401FE00FC00000000 0x001A0000400000000
  | .wrDmatcr0 _ _ _ => .bus 0x401FE00FC00000000 0x401A0000800000000
  | .rdDmatcr0 _ _ => .bus 0x401FE00FC00000000 0x001A0000800000000
  | .wrChcr0 _ _ _ => .bus 0x401FE00FC00000000 0x401A0000C00000000
  | .rdChcr0 _ _ => .bus 0x401FE00FC00000000 0x001A0000C00000000
  | .wrSar1 _ _ _ => .bus 0x401FE00FC00000000 0x401A0001000000000
  | .rdSar1 _ _ => .bus 0x401FE00FC00000000 0x001A0001000000000
  | .wrDar1 _ _ _ => .bus 0x401FE00FC00000000 0x401A0001400000000
  | .rdDar1 _ _ => .bus 0x401FE00FC00000000 0x001A0001400000000
  | .wrDmatcr1 _ _ _ => .bus 0x401FE00FC00000000 0x401A0001800000000
  | .rdDmatcr1 _ _ => .bus 0x401FE00FC00000000 0x001A0001800000000
  | .wrChcr1 _ _ _ => .bus 0x401FE00FC00000000 0x401A0001C00000000
  | .rdChcr1 _ _ => .bus 0x401FE00FC00000000 0x001A0001C00000000
  | .wrSar2 _ _ _ => .bus 0x401FE00FC00000000 0x401A0002000000000
  | .rdSar2 _ _ => .bus 0x401FE00FC00000000 0x001A0002000000000
  | .wrDar2 _ _ _ => .bus 0x401FE00FC00000000 0x401A0002400000000
  | .rdDar2 _ _ => .bus 0x401FE00FC00000000 0x001A0002400000000
  | .wrDmatcr2 _ _ _ => .bus 0x401FE00FC00000000 0x401A0002800000000
  | .rdDmatcr2 _ _ => .bus 0x401FE00FC00000000 0x001A0002800000000
  | .wrChcr2 _ _ _ => .bus 0x401FE00FC00000000 0x401A0002C00000000
  | .rdChcr2 _ _ => .bus 0x401FE00FC00000000 0x001A0002C00000000
  | .wrSar3 _ _ _ => .bus 0x401FE00FC00000000 0x401A0003000000000
  | .rdSar3 _ _ => .bus 0x401FE00FC00000000 0x001A0003000000000
  | .wrDar3 _ _ _ => .bus 0x401FE00FC00000000 0x401A0003400000000
  | .rdDar3 _ _ => .bus 0x401FE00FC00000000 0x001A0003400000000
  | .wrDmatcr3 _ _ _ => .bus 0x401FE00FC00000000 0x401A0003800000000
  | .rdDmatcr3 _ _ => .bus 0x401FE00FC00000000 0x001A0003800000000
  | .wrChcr3 _ _ _ => .bus 0x401FE00FC00000000 0x401A0003C00000000
  | .rdChcr3 _ _ => .bus 0x401FE00FC00000000 0x001A0003C00000000
  | .wrDmaor _ _ _ => .bus 0x401FE00FC00000000 0x401A0004000000000
  | .rdDmaor _ _ => .bus 0x401FE00FC00000000 0x001A0004000000000
  | .wrBcr2 _ _ _ => .bus 0x401FE00FC00000000 0x40180000400000000
  | .rdBcr2 _ _ => .bus 0x401FE00FC00000000 0x00180000400000000
  | .wrMcr _ _ _ => .bus 0x401FE00FC00000000 0x40180001400000000
  | .rdMcr _ _ => .bus 0x401FE00FC00000000 0x00180001400000000
  | .wrRtcsr _ _ _ => .bus 0x401FE00FC00000000 0x40180001C00000000
  | .rdRtcsr _ _ => .bus 0x401FE00FC00000000 0x00180001C00000000
  | .wrRtcnt _ _ _ => .bus 0x401FE00FC00000000 0x40180002000000000
  | .rdRtcnt _ _ => .bus 0x401FE00FC00000000 0x00180002000000000
  | .wrRtcor _ _ _ => .bus 0x401FE00FC00000000 0x40180002400000000
  | .rdRtcor _ _ => .bus 0x401FE00FC00000000 0x00180002400000000
  | .wrRfcr _ _ _ => .bus 0x401FE00FC00000000 0x40180002800000000
  | .rdRfcr _ _ => .bus 0x401FE00FC00000000 0x00180002800000000
  | .wrPctra _ _ _ => .bus 0x401FE00FC00000000 0x40180002C00000000
  | .rdPctra _ _ => .bus 0x401FE00FC00000000 0x00180002C00000000
  | .wrPdtra _ _ _ => .bus 0x401FE00FC00000000 0x40180003000000000
  | .rdPdtra _ _ => .bus 0x401FE00FC00000000 0x00180003000000000
  | .wrPctrb _ _ _ => .bus 0x401FE00FC00000000 0x40180004000000000
  | .rdPctrb _ _ => .bus 0x401FE00FC00000000 0x00180004000000000
  | .wrPdtrb _ _ _ => .bus 0x401FE00FC00000000 0x40180004400000000
  | .rdPdtrb _ _ => .bus 0x401FE00FC00000000 0x00180004400000000
  | .wrR64cnt _ _ _ => .bus 0x401FE00FC00000000 0x401C8000000000000
  | .rdR64cnt _ _ => .bus 0x401FE00FC00000000 0x001C8000000000000
  | .wrRseccnt _ _ _ => .bus 0x401FE00FC00000000 0x401C8000400000000
  | .rdRseccnt _ _ => .bus 0x401FE00FC00000000 0x001C8000400000000
  | .wrRmincnt _ _ _ => .bus 0x401FE00FC00000000 0x401C8000800000000
  | .rdRmincnt _ _ => .bus 0x401FE00FC00000000 0x001C8000800000000
  | .wrRhrcnt _ _ _ => .bus 0x401FE00FC00000000 0x401C8000C00000000
  | .rdRhrcnt _ _ => .bus 0x401FE00FC00000000 0x001C8000C00000000
  | .wrRwkcnt _ _ _ => .bus 0x401FE00FC00000000 0x401C8001000000000
  | .rdRwkcnt _ _ => .bus 0x401FE00FC00000000 0x001C8001000000000
  | .wrRdaycnt _ _ _ => .bus 0x401FE00FC00000000 0x401C8001400000000
  | .rdRdaycnt _ _ => .bus 0x401FE00FC00000000 0x001C8001400000000
  | .wrRmoncnt _ _ _ => .bus 0x401FE00FC00000000 0x401C8001800000000
  | .rdRmoncnt _ _ => .bus 0x401FE00FC00000000 0x001C8001800000000
  | .wrRyrcnt _ _ _ => .bus 0x401FE00FC00000000 0x401C8001C00000000
  | .rdRyrcnt _ _ => .bus 0x401FE00FC00000000 0x001C8001C00000000
  | .wrRcr1 _ _ _ => .bus 0x401FE00FC00000000 0x401C8003800000000
  | .rdRcr1 _ _ => .bus 0x401FE00FC00000000 0x001C8003800000000
  | .wrRcr2 _ _ _ => .bus 0x401FE00FC00000000 0x401C8003C00000000
  | .rdRcr2 _ _ => .bus 0x401FE00FC00000000 0x001C8003C00000000
  | .wrTstr _ _ _ => .bus 0x401FE00FC00000000 0x401D8000400000000
  | .rdTstr _ _ => .bus 0x401FE00FC00000000 0x001D8000400000000
  | .wrTcor0 _ _ _ => .bus 0x401FE00FC00000000 0x401D8000800000000
  | .rdTcor0 _ _ => .bus 0x401FE00FC00000000 0x001D8000800000000
  | .wrTcnt0 _ _ _ => .bus 0x401FE00FC00000000 0x401D8000C00000000
  | .rdTcnt0 _ _ => .bus 0x401FE00FC00000000 0x001D8000C00000000
  | .wrTcr0 _ _ _ => .bus 0x401FE00FC00000000 0x401D8001000000000
  | .rdTcr0 _ _ => .bus 0x401FE00FC00000000 0x001D8001000000000
  | .wrTcor1 _ _ _ => .bus 0x401FE00FC00000000 0x401D8001400000000
  | .rdTcor1 _ _ => .bus 0x401FE00FC00000000 0x001D8001400000000
  | .wrTcnt1 _ _ _ => .bus 0x401FE00FC00000000 0x401D8001800000000
  | .rdTcnt1 _ _ => .bus 0x401FE00FC00000000 0x001D8001800000000
  | .wrTcr1 _ _ _ => .bus 0x401FE00FC00000000 0x401D8001C00000000
  | .rdTcr1 _ _ => .bus 0x401FE00FC00000000 0x001D8001C00000000
  | .wrTcor2 _ _ _ => .bus 0x401FE00FC00000000 0x401D8002000000000
  | .rdTcor2 _ _ => .bus 0x401FE00FC00000000 0x001D8002000000000
  | .wrTcnt2 _ _ _ => .bus 0x401FE00FC00000000 0x401D8002400000000
  | .rdTcnt2 _ _ => .bus 0x401FE00FC00000000 0x001D8002400000000
  | .wrTcr2 _ _ _ => .bus 0x401FE00FC00000000 0x401D8002800000000
  | .rdTcr2 _ _ => .bus 0x401FE00FC00000000 0x001D8002800000000
  | .wrDefault _ _ _ => .bus 0x40000000000000000 0x40000000000000000
  | .rdDefault _ _ => .bus 0x40000000000000000 0x00000000000000000

/-- Under the default parameters the word of a well-formed operation has the fixed bits of the operation's row. -/
def Statement (i : Instr) : Prop := i.wellFormed Machine.defaultConfig = true → (row i).covers (encode i)

theorem covers_port {i : Instr} {op : Byte} {arg : Word} (h : encode i = encodeP op arg)
    (hr : row i = .port 0xFF00000000 (op ++ 0#32)) : Statement i := by
  intro _
  rw [hr, h]
  exact portWord_mask op arg

/-- `ADDR[reg]` of the default parameters (10_state R40). -/
theorem addrOf_default (r : Reg) : Machine.defaultConfig.addrOf r = Machine.defaultAddr r := by
  cases r with
  | ipr n => revert n; decide
  | sar n => revert n; decide
  | dar n => revert n; decide
  | dmatcr n => revert n; decide
  | chcr n => revert n; decide
  | tcor n => revert n; decide
  | tcnt n => revert n; decide
  | tcr n => revert n; decide
  | _ => decide

theorem covers_named (v : Bool) (r : Reg) {i : Instr} {b : BusAccess} {m p : BitVec 67}
    (hb : i.busAccess = some b) (hv : b.write = v) (ht : b.target = some r) (he : encode i = encodeB b)
    (hr : row i = .bus m p) (hm : m = (1#1 ++ 0#2 ++ 0x01FE00FC#32 ++ 0#32) ∧
      p = (BitVec.ofBool v ++ 0#2 ++ (Machine.defaultAddr r &&& 0x01FE00FC#32) ++ 0#32)) : Statement i := by
  intro hw
  rw [hr, he, hm.1, hm.2, ← addrOf_default, ← regIndex_eq_mask (wellFormed_index hb ht hw), ← hv]
  exact busWord_mask _ _ _ _ _

theorem covers_default (v : Bool) {i : Instr} {b : BusAccess} {m p : BitVec 67} (hv : b.write = v)
    (he : encode i = encodeB b) (hr : row i = .bus m p)
    (hm : m = (1#1 ++ 0#2 ++ 0#32 ++ 0#32) ∧ p = (BitVec.ofBool v ++ 0#2 ++ 0#32 ++ 0#32)) : Statement i := by
  intro _
  rw [hr, he, hm.1, hm.2, ← hv]
  have h := busWord_mask (BitVec.ofBool b.write) b.width.code b.addr b.data 0#32
  rw [BitVec.and_zero] at h
  exact h


theorem request (s : Source) : Statement (.request s) := covers_port rfl rfl
theorem unrequest (s : Source) : Statement (.unrequest s) := covers_port rfl rfl
theorem recompute : Statement .recompute := covers_port rfl rfl
theorem boundary (d : Bool) : Statement (.boundary d) := covers_port rfl rfl
theorem raise (s : Source) : Statement (.raise s) := covers_port rfl rfl
theorem setIrl (k : Fin 4) (v : Bool) : Statement (.setIrl k v) := covers_port rfl rfl
theorem setIrln (v : Word) : Statement (.setIrln v) := covers_port rfl rfl
theorem setNmi (v : Bool) : Statement (.setNmi v) := covers_port rfl rfl
theorem dmaData (n : Chan) : Statement (.dmaData n) := covers_port rfl rfl
theorem dmaDdt (n : Chan) : Statement (.dmaDdt n) := covers_port rfl rfl
theorem advance (dt : Word) : Statement (.advance dt) := covers_port rfl rfl
theorem fire (t : TimerId) : Statement (.fire t) := covers_port rfl rfl
theorem reset : Statement .reset := covers_port rfl rfl
theorem wrIntevt (w : Width) (a d : Word) : Statement (.wrIntevt w a d) :=
  covers_named true (.intevt) rfl rfl rfl rfl rfl (by decide)
theorem rdIntevt (w : Width) (a : Word) : Statement (.rdIntevt w a) :=
  covers_named false (.intevt) rfl rfl rfl rfl rfl (by decide)
theorem wrPvr (w : Width) (a d : Word) : Statement (.wrPvr w a d) :=
  covers_named true (.pvr) rfl rfl rfl rfl rfl (by decide)
theorem rdPvr (w : Width) (a : Word) : Statement (.rdPvr w a) :=
  covers_named false (.pvr) rfl rfl rfl rfl rfl (by decide)
theorem wrPrr (w : Width) (a d : Word) : Statement (.wrPrr w a d) :=
  covers_named true (.prr) rfl rfl rfl rfl rfl (by decide)
theorem rdPrr (w : Width) (a : Word) : Statement (.rdPrr w a) :=
  covers_named false (.prr) rfl rfl rfl rfl rfl (by decide)
theorem wrIcr (w : Width) (a d : Word) : Statement (.wrIcr w a d) :=
  covers_named true (.icr) rfl rfl rfl rfl rfl (by decide)
theorem rdIcr (w : Width) (a : Word) : Statement (.rdIcr w a) :=
  covers_named false (.icr) rfl rfl rfl rfl rfl (by decide)
theorem wrIpra (w : Width) (a d : Word) : Statement (.wrIpra w a d) :=
  covers_named true (.ipr 0) rfl rfl rfl rfl rfl (by decide)
theorem rdIpra (w : Width) (a : Word) : Statement (.rdIpra w a) :=
  covers_named false (.ipr 0) rfl rfl rfl rfl rfl (by decide)
theorem wrIprb (w : Width) (a d : Word) : Statement (.wrIprb w a d) :=
  covers_named true (.ipr 1) rfl rfl rfl rfl rfl (by decide)
theorem rdIprb (w : Width) (a : Word) : Statement (.rdIprb w a) :=
  covers_named false (.ipr 1) rfl rfl rfl rfl rfl (by decide)
theorem wrIprc (w : Width) (a d : Word) : Statement (.wrIprc w a d) :=
  covers_named true (.ipr 2) rfl rfl rfl rfl rfl (by decide)
theorem rdIprc (w : Width) (a : Word) : Statement (.rdIprc w a) :=
  covers_named false (.ipr 2) rfl rfl rfl rfl rfl (by decide)
theorem wrIprd (w : Width) (a d : Word) : Statement (.wrIprd w a d) :=
  covers_named true (.ipr 3) rfl rfl rfl rfl rfl (by decide)
theorem rdIprd (w : Width) (a : Word) : Statement (.rdIprd w a) :=
  covers_named false (.ipr 3) rfl rfl rfl rfl rfl (by decide)
theorem wrRsvz (w : Width) (a d : Word) : Statement (.wrRsvz w a d) :=
  covers_named true (.rsvz) rfl rfl rfl rfl rfl (by decide)
theorem rdRsvz (w : Width) (a : Word) : Statement (.rdRsvz w a) :=
  covers_named false (.rsvz) rfl rfl rfl rfl rfl (by decide)
theorem wrSar0 (w : Width) (a d : Word) : Statement (.wrSar0 w a d) :=
  covers_named true (.sar 0) rfl rfl rfl rfl rfl (by decide)
theorem rdSar0 (w : Width) (a : Word) : Statement (.rdSar0 w a) :=
  covers_named false (.sar 0) rfl rfl rfl rfl rfl (by decide)
theorem wrDar0 (w : Width) (a d : Word) : Statement (.wrDar0 w a d) :=
  covers_named true (.dar 0) rfl rfl rfl rfl rfl (by decide)
theorem rdDar0 (w : Width) (a : Word) : Statement (.rdDar0 w a) :=
  covers_named false (.dar 0) rfl rfl rfl rfl rfl (by decide)
theorem wrDmatcr0 (w : Width) (a d : Word) : Statement (.wrDmatcr0 w a d) :=
  covers_named true (.dmatcr 0) rfl rfl rfl rfl rfl (by decide)
theorem rdDmatcr0 (w : Width) (a : Word) : Statement (.rdDmatcr0 w a) :=
  covers_named false (.dmatcr 0) rfl rfl rfl rfl rfl (by decide)
theorem wrChcr0 (w : Width) (a d : Word) : Statement (.wrChcr0 w a d) :=
  covers_named true (.chcr 0) rfl rfl rfl rfl rfl (by decide)
theorem rdChcr0 (w : Width) (a : Word) : Statement (.rdChcr0 w a) :=
  covers_named false (.chcr 0) rfl rfl rfl rfl rfl (by decide)
theorem wrSar1 (w : Width) (a d : Word) : Statement (.wrSar1 w a d) :=
  covers_named true (.sar 1) rfl rfl rfl rfl rfl (by decide)
theorem rdSar1 (w : Width) (a : Word) : Statement (.rdSar1 w a) :=
  covers_named false (.sar 1) rfl rfl rfl rfl rfl (by decide)
theorem wrDar1 (w : Width) (a d : Word) : Statement (.wrDar1 w a d) :=
  covers_named true (.dar 1) rfl rfl rfl rfl rfl (by decide)
theorem rdDar1 (w : Width) (a : Word) : Statement (.rdDar1 w a) :=
  covers_named false (.dar 1) rfl rfl rfl rfl rfl (by decide)
theorem wrDmatcr1 (w : Width) (a d : Word) : Statement (.wrDmatcr1 w a d) :=
  covers_named true (.dmatcr 1) rfl rfl rfl rfl rfl (by decide)
theorem rdDmatcr1 (w : Width) (a : Word) : Statement (.rdDmatcr1 w a) :=
  covers_named false (.dmatcr 1) rfl rfl rfl rfl rfl (by decide)
theorem wrChcr1 (w : Width) (a d : Word) : Statement (.wrChcr1 w a d) :=
  covers_named true (.chcr 1) rfl rfl rfl rfl rfl (by decide)
theorem rdChcr1 (w : Width) (a : Word) : Statement (.rdChcr1 w a) :=
  covers_named false (.chcr 1) rfl rfl rfl rfl rfl (by decide)
theorem wrSar2 (w : Width) (a d : Word) : Statement (.wrSar2 w a d) :=
  covers_named true (.sar 2) rfl rfl rfl rfl rfl (by decide)
theorem rdSar2 (w : Width) (a : Word) : Statement (.rdSar2 w a) :=
  covers_named false (.sar 2) rfl rfl rfl rfl rfl (by decide)
theorem wrDar2 (w : Width) (a d : Word) : Statement (.wrDar2 w a d) :=
  covers_named true (.dar 2) rfl rfl rfl rfl rfl (by decide)
theorem rdDar2 (w : Width) (a : Word) : Statement (.rdDar2 w a) :=
  covers_named false (.dar 2) rfl rfl rfl rfl rfl (by decide)
theorem wrDmatcr2 (w : Width) (a d : Word) : Statement (.wrDmatcr2 w a d) :=
  covers_named true (.dmatcr 2) rfl rfl rfl rfl rfl (by decide)
theorem rdDmatcr2 (w : Width) (a : Word) : Statement (.rdDmatcr2 w a) :=
  covers_named false (.dmatcr 2) rfl rfl rfl rfl rfl (by decide)
theorem wrChcr2 (w : Width) (a d : Word) : Statement (.wrChcr2 w a d) :=
  covers_named true (.chcr 2) rfl rfl rfl rfl rfl (by decide)
theorem rdChcr2 (w : Width) (a : Word) : Statement (.rdChcr2 w a) :=
  covers_named false (.chcr 2) rfl rfl rfl rfl rfl (by decide)
theorem wrSar3 (w : Width) (a d : Word) : Statement (.wrSar3 w a d) :=
  covers_named true (.sar 3) rfl rfl rfl rfl rfl (by decide)
theorem rdSar3 (w : Width) (a : Word) : Statement (.rdSar3 w a) :=
  covers_named false (.sar 3) rfl rfl rfl rfl rfl (by decide)
theorem wrDar3 (w : Width) (a d : Word) : Statement (.wrDar3 w a d) :=
  covers_named true (.dar 3) rfl rfl rfl rfl rfl (by decide)
theorem rdDar3 (w : Width) (a : Word) : Statement (.rdDar3 w a) :=
  covers_named false (.dar 3) rfl rfl rfl rfl rfl (by decide)
theorem wrDmatcr3 (w : Width) (a d : Word) : Statement (.wrDmatcr3 w a d) :=
  covers_named true (.dmatcr 3) rfl rfl rfl rfl rfl (by decide)
theorem rdDmatcr3 (w : Width) (a : Word) : Statement (.rdDmatcr3 w a) :=
  covers_named false (.dmatcr 3) rfl rfl rfl rfl rfl (by decide)
theorem wrChcr3 (w : Width) (a d : Word) : Statement (.wrChcr3 w a d) :=
  covers_named true (.chcr 3) rfl rfl rfl rfl rfl (by decide)
theorem rdChcr3 (w : Width) (a : Word) : Statement (.rdChcr3 w a) :=
  covers_named false (.chcr 3) rfl rfl rfl rfl rfl (by decide)
theorem wrDmaor (w : Width) (a d : Word) : Statement (.wrDmaor w a d) :=
  covers_named true (.dmaor) rfl rfl rfl rfl rfl (by decide)
theorem rdDmaor (w : Width) (a : Word) : Statement (.rdDmaor w a) :=
  covers_named false (.dmaor) rfl rfl rfl rfl rfl (by decide)
theorem wrBcr2 (w : Width) (a d : Word) : Statement (.wrBcr2 w a d) :=
  covers_named true (.bcr2) rfl rfl rfl rfl rfl (by decide)
theorem rdBcr2 (w : Width) (a : Word) : Statement (.rdBcr2 w a) :=
  covers_named false (.bcr2) rfl rfl rfl rfl rfl (by decide)
theorem wrMcr (w : Width) (a d : Word) : Statement (.wrMcr w a d) :=
  covers_named true (.mcr) rfl rfl rfl rfl rfl (by decide)
theorem rdMcr (w : Width) (a : Word) : Statement (.rdMcr w a) :=
  covers_named false (.mcr) rfl rfl rfl rfl rfl (by decide)
theorem wrRtcsr (w : Width) (a d : Word) : Statement (.wrRtcsr w a d) :=
  covers_named true (.rtcsr) rfl rfl rfl rfl rfl (by decide)
theorem rdRtcsr (w : Width) (a : Word) : Statement (.rdRtcsr w a) :=
  covers_named false (.rtcsr) rfl rfl rfl rfl rfl (by decide)
theorem wrRtcnt (w : Width) (a d : Word) : Statement (.wrRtcnt w a d) :=
  covers_named true (.rtcnt) rfl rfl rfl rfl rfl (by decide)
theorem rdRtcnt (w : Width) (a : Word) : Statement (.rdRtcnt w a) :=
  covers_named false (.rtcnt) rfl rfl rfl rfl rfl (by decide)
theorem wrRtcor (w : Width) (a d : Word) : Statement (.wrRtcor w a d) :=
  covers_named true (.rtcor) rfl rfl rfl rfl rfl (by decide)
theorem rdRtcor (w : Width) (a : Word) : Statement (.rdRtcor w a) :=
  covers_named false (.rtcor) rfl rfl rfl rfl rfl (by decide)
theorem wrRfcr (w : Width) (a d : Word) : Statement (.wrRfcr w a d) :=
  covers_named true (.rfcr) rfl rfl rfl rfl rfl (by decide)
theorem rdRfcr (w : Width) (a : Word) : Statement (.rdRfcr w a) :=
  covers_named false (.rfcr) rfl rfl rfl rfl rfl (by decide)
theorem wrPctra (w : Width) (a d : Word) : Statement (.wrPctra w a d) :=
  covers_named true (.pctra) rfl rfl rfl rfl rfl (by decide)
theorem rdPctra (w : Width) (a : Word) : Statement (.rdPctra w a) :=
  covers_named false (.pctra) rfl rfl rfl rfl rfl (by decide)
theorem wrPdtra (w : Width) (a d : Word) : Statement (.wrPdtra w a d) :=
  covers_named true (.pdtra) rfl rfl rfl rfl rfl (by decide)
theorem rdPdtra (w : Width) (a : Word) : Statement (.rdPdtra w a) :=
  covers_named false (.pdtra) rfl rfl rfl rfl rfl (by decide)
theorem wrPctrb (w : Width) (a d : Word) : Statement (.wrPctrb w a d) :=
  covers_named true (.pctrb) rfl rfl rfl rfl rfl (by decide)
theorem rdPctrb (w : Width) (a : Word) : Statement (.rdPctrb w a) :=
  covers_named false (.pctrb) rfl rfl rfl rfl rfl (by decide)
theorem wrPdtrb (w : Width) (a d : Word) : Statement (.wrPdtrb w a d) :=
  covers_named true (.pdtrb) rfl rfl rfl rfl rfl (by decide)
theorem rdPdtrb (w : Width) (a : Word) : Statement (.rdPdtrb w a) :=
  covers_named false (.pdtrb) rfl rfl rfl rfl rfl (by decide)
theorem wrR64cnt (w : Width) (a d : Word) : Statement (.wrR64cnt w a d) :=
  covers_named true (.r64cnt) rfl rfl rfl rfl rfl (by decide)
theorem rdR64cnt (w : Width) (a : Word) : Statement (.rdR64cnt w a) :=
  covers_named false (.r64cnt) rfl rfl rfl rfl rfl (by decide)
theorem wrRseccnt (w : Width) (a d : Word) : Statement (.wrRseccnt w a d) :=
  covers_named true (.rseccnt) rfl rfl rfl rfl rfl (by decide)
theorem rdRseccnt (w : Width) (a : Word) : Statement (.rdRseccnt w a) :=
  covers_named false (.rseccnt) rfl rfl rfl rfl rfl (by decide)
theorem wrRmincnt (w : Width) (a d : Word) : Statement (.wrRmincnt w a d) :=
  covers_named true (.rmincnt) rfl rfl rfl rfl rfl (by decide)
theorem rdRmincnt (w : Width) (a : Word) : Statement (.rdRmincnt w a) :=
  covers_named false (.rmincnt) rfl rfl rfl rfl rfl (by decide)
theorem wrRhrcnt (w : Width) (a d : Word) : Statement (.wrRhrcnt w a d) :=
  covers_named true (.rhrcnt) rfl rfl rfl rfl rfl (by decide)
theorem rdRhrcnt (w : Width) (a : Word) : Statement (.rdRhrcnt w a) :=
  covers_named false (.rhrcnt) rfl rfl rfl rfl rfl (by decide)
theorem wrRwkcnt (w : Width) (a d : Word) : Statement (.wrRwkcnt w a d) :=
  covers_named true (.rwkcnt) rfl rfl rfl rfl rfl (by decide)
theorem rdRwkcnt (w : Width) (a : Word) : Statement (.rdRwkcnt w a) :=
  covers_named false (.rwkcnt) rfl rfl rfl rfl rfl (by decide)
theorem wrRdaycnt (w : Width) (a d : Word) : Statement (.wrRdaycnt w a d) :=
  covers_named true (.rdaycnt) rfl rfl rfl rfl rfl (by decide)
theorem rdRdaycnt (w : Width) (a : Word) : Statement (.rdRdaycnt w a) :=
  covers_named false (.rdaycnt) rfl rfl rfl rfl rfl (by decide)
theorem wrRmoncnt (w : Width) (a d : Word) : Statement (.wrRmoncnt w a d) :=
  covers_named true (.rmoncnt) rfl rfl rfl rfl rfl (by decide)
theorem rdRmoncnt (w : Width) (a : Word) : Statement (.rdRmoncnt w a) :=
  covers_named false (.rmoncnt) rfl rfl rfl rfl rfl (by decide)
theorem wrRyrcnt (w : Width) (a d : Word) : Statement (.wrRyrcnt w a d) :=
  covers_named true (.ryrcnt) rfl rfl rfl rfl rfl (by decide)
theorem rdRyrcnt (w : Width) (a : Word) : Statement (.rdRyrcnt w a) :=
  covers_named false (.ryrcnt) rfl rfl rfl rfl rfl (by decide)
theorem wrRcr1 (w : Width) (a d : Word) : Statement (.wrRcr1 w a d) :=
  covers_named true (.rcr1) rfl rfl rfl rfl rfl (by decide)
theorem rdRcr1 (w : Width) (a : Word) : Statement (.rdRcr1 w a) :=
  covers_named false (.rcr1) rfl rfl rfl rfl rfl (by decide)
theorem wrRcr2 (w : Width) (a d : Word) : Statement (.wrRcr2 w a d) :=
  covers_named true (.rcr2) rfl rfl rfl rfl rfl (by decide)
theorem rdRcr2 (w : Width) (a : Word) : Statement (.rdRcr2 w a) :=
  covers_named false (.rcr2) rfl rfl rfl rfl rfl (by decide)
theorem wrTstr (w : Width) (a d : Word) : Statement (.wrTstr w a d) :=
  covers_named true (.tstr) rfl rfl rfl rfl rfl (by decide)
theorem rdTstr (w : Width) (a : Word) : Statement (.rdTstr w a) :=
  covers_named false (.tstr) rfl rfl rfl rfl rfl (by decide)
theorem wrTcor0 (w : Width) (a d : Word) : Statement (.wrTcor0 w a d) :=
  covers_named true (.tcor 0) rfl rfl rfl rfl rfl (by decide)
theorem rdTcor0 (w : Width) (a : Word) : Statement (.rdTcor0 w a) :=
  covers_named false (.tcor 0) rfl rfl rfl rfl rfl (by decide)
theorem wrTcnt0 (w : Width) (a d : Word) : Statement (.wrTcnt0 w a d) :=
  covers_named true (.tcnt 0) rfl rfl rfl rfl rfl (by decide)
theorem rdTcnt0 (w : Width) (a : Word) : Statement (.rdTcnt0 w a) :=
  covers_named false (.tcnt 0) rfl rfl rfl rfl rfl (by decide)
theorem wrTcr0 (w : Width) (a d : Word) : Statement (.wrTcr0 w a d) :=
  covers_named true (.tcr 0) rfl rfl rfl rfl rfl (by decide)
theorem rdTcr0 (w : Width) (a : Word) : Statement (.rdTcr0 w a) :=
  covers_named false (.tcr 0) rfl rfl rfl rfl rfl (by decide)
theorem wrTcor1 (w : Width) (a d : Word) : Statement (.wrTcor1 w a d) :=
  covers_named true (.tcor 1) rfl rfl rfl rfl rfl (by decide)
theorem rdTcor1 (w : Width) (a : Word) : Statement (.rdTcor1 w a) :=
  covers_named false (.tcor 1) rfl rfl rfl rfl rfl (by decide)
theorem wrTcnt1 (w : Width) (a d : Word) : Statement (.wrTcnt1 w a d) :=
  covers_named true (.tcnt 1) rfl rfl rfl rfl rfl (by decide)
theorem rdTcnt1 (w : Width) (a : Word) : Statement (.rdTcnt1 w a) :=
  covers_named false (.tcnt 1) rfl rfl rfl rfl rfl (by decide)
theorem wrTcr1 (w : Width) (a d : Word) : Statement (.wrTcr1 w a d) :=
  covers_named true (.tcr 1) rfl rfl rfl rfl rfl (by decide)
theorem rdTcr1 (w : Width) (a : Word) : Statement (.rdTcr1 w a) :=
  covers_named false (.tcr 1) rfl rfl rfl rfl rfl (by decide)
theorem wrTcor2 (w : Width) (a d : Word) : Statement (.wrTcor2 w a d) :=
  covers_named true (.tcor 2) rfl rfl rfl rfl rfl (by decide)
theorem rdTcor2 (w : Width) (a : Word) : Statement (.rdTcor2 w a) :=
  covers_named false (.tcor 2) rfl rfl rfl rfl rfl (by decide)
theorem wrTcnt2 (w : Width) (a d : Word) : Statement (.wrTcnt2 w a d) :=
  covers_named true (.tcnt 2) rfl rfl rfl rfl rfl (by decide)
theorem rdTcnt2 (w : Width) (a : Word) : Statement (.rdTcnt2 w a) :=
  covers_named false (.tcnt 2) rfl rfl rfl rfl rfl (by decide)
theorem wrTcr2 (w : Width) (a d : Word) : Statement (.wrTcr2 w a d) :=
  covers_named true (.tcr 2) rfl rfl rfl rfl rfl (by decide)
theorem rdTcr2 (w : Width) (a : Word) : Statement (.rdTcr2 w a) :=
  covers_named false (.tcr 2) rfl rfl rfl rfl rfl (by decide)
theorem wrDefault (w : Width) (a d : Word) : Statement (.wrDefault w a d) :=
  covers_default true rfl rfl rfl (by decide)
theorem rdDefault (w : Width) (a : Word) : Statement (.rdDefault w a) :=
  covers_default false rfl rfl rfl (by decide)

end Sys2Proof.Laws.TableRow
end

