-- ==== Sys2Proof/Laws/Reset.lean ====
section
/-! SUPPORT. The reset values: the default ones are coherent, every index lies in the register file, and what
`RESET` installs, field by field. -/
namespace Sys2Proof

theorem IndexMap.value_lt (m : IndexMap) (a : Word) : m.value a < 0x4000 := by
  unfold IndexMap.value
  split
  · exact BitVec.isLt _
  · exact Nat.mod_lt _ (by decide)

/-- An index is one of the register file's (10_state R29). -/
theorem regIndex_lt (cfg : Config) (a : Word) : regIndex cfg a < 0x4000 := cfg.map.scramble.value_lt a

theorem Config.index_lt (cfg : Config) (r : Reg) : cfg.index r < 0x4000 := regIndex_lt cfg _

/-- The value of a register at reset depends on the reset values alone. -/
theorem resetValue_congr {c c' : Config} (h : c.reset = c'.reset) (r : Reg) : c.resetValue r = c'.resetValue r := by
  unfold Config.resetValue
  rw [h]

/-! ## The source table: the constants of 00_scope R9 -/

theorem srcEntry_nmi (cfg : Config) : cfg.srcEntry Machine.srcNmi = .fixed 3 16 := rfl

theorem srcEntry_irll (cfg : Config) (k : Fin 15) : cfg.srcEntry (Machine.srcIrll k) = .fixed 0 (15 - k.val) := by
  have hv : (Machine.srcIrll k).val = 17 + k.val := rfl
  unfold Config.srcEntry
  rw [dif_neg (by omega), if_neg (by omega), if_pos (by omega), hv]
  congr 1; omega

theorem srcEntry_irl (cfg : Config) (i : Fin 4) :
    cfg.srcEntry (Machine.srcIrl i) = .fixed 0 ([13, 10, 7, 4].getD i.val 0) := by
  have h : 13 - 3 * i.val = [13, 10, 7, 4].getD i.val 0 := by revert i; decide
  have hv : (Machine.srcIrl i).val = 32 + i.val := rfl
  unfold Config.srcEntry
  rw [dif_neg (by omega), if_neg (by omega), if_neg (by omega), if_pos (by omega), ← h, hv]
  congr 2; omega

/-- No nibble of a priority register gives the sub-priority of NMI or of a line. -/
theorem srcEntry_fixed (cfg : Config) {x : Source} (h : 16 ≤ x.val) (h' : x.val ≤ 35) :
    ∃ l u, cfg.srcEntry x = .fixed l u := by
  unfold Config.srcEntry
  rw [dif_neg (by omega)]
  split
  · exact ⟨_, _, rfl⟩
  · split
    · exact ⟨_, _, rfl⟩
    · rw [if_pos (by omega)]; exact ⟨_, _, rfl⟩

theorem srcRow_level2 {e : SrcRow} {u : Nat} (h : e.entry = .fixed 2 u) : u ≤ 10 := by
  cases e with
  | fixed l v =>
    injection h with h1 h2
    have := l.isLt; omega
  | fault v =>
    injection h with h1 h2
    have := v.isLt; omega
  | nibble r k => cases h

/-- Level 2 has the sub-priorities 0 to 10. -/
theorem srcEntry_level2 {cfg : Config} {x : Source} {u : Nat} (h : cfg.srcEntry x = .fixed 2 u) : u ≤ 10 := by
  unfold Config.srcEntry at h
  split at h
  · exact srcRow_level2 h
  · split at h
    · cases h
    · split at h
      · cases h
      · split at h
        · cases h
        · split at h
          · exact srcRow_level2 h
          · cases h

namespace Machine

/-- Registers on cells of their own and the spec's reset values are coherent parameters. -/
theorem coherent_of_default {cfg : Config} (hs : cfg.separate = true) (hr : cfg.reset = defaultReset) :
    Coherent cfg := by
  have hv : ∀ r, cfg.resetValue r = defaultConfig.resetValue r := resetValue_congr hr
  have hf : cfg.resetValue = defaultConfig.resetValue := funext hv
  constructor
  case separate => exact hs
  case pending =>
    unfold anyRequesting intcReset
    rw [hr]
    show defaultReset.pending = allSources.any fun x => defaultReset.requesting[x]
    decide
  case nibbles => rw [hr, hf]; decide
  case regs => rw [hf]; exact ⟨by decide, by decide, by decide⟩
  case dma => rw [hr]; exact ⟨by unfold ChannelInv; decide, rfl⟩
  case tmu =>
    rw [hr]
    have h0 : ∀ n : TmuChan, tstrStr (defaultConfig.resetValue .tstr) n = false := by decide
    refine ⟨rfl, fun n h => ?_⟩
    rw [hv, h0] at h
    cases h
  case refresh => rw [hr, hf]; exact ⟨rfl, by decide⟩
  case rtc => rw [hf]; decide
  case gpio => rw [hr, hf]; unfold GpioAgrees; decide

theorem coherent_default : Coherent defaultConfig := coherent_of_default separate_default rfl

/-- A file whose every key is an index holds nothing above them. -/
theorem sparseGet_of_keys_lt {l : Cells} (h : ∀ e ∈ l, e.1 < 0x4000) {i : Nat} (hi : 0x4000 ≤ i) :
    sparseGet (0 : Word) l i = 0 := by
  induction l with
  | nil => rfl
  | cons e l ih =>
    have he := h e (by simp)
    rw [sparseGet, if_neg (by omega)]
    exact ih fun f hf => h f (by simp [hf])

/-- `RESET` writes indices of the register file alone. -/
theorem regsReset_range (cfg : Config) {i : Nat} (hi : 0x4000 ≤ i) : sparseGet 0 (regsReset cfg) i = 0 := by
  rw [regsReset_get]
  cases h : cfg.reset.regs.reverse.find? (fun e => decide (cfg.index e.1 = i)) with
  | none => rfl
  | some e =>
    have he := List.find?_some h
    have := cfg.index_lt e.1
    exact absurd (of_decide_eq_true he) (by omega)

section
variable (s : State) (n : Chan) (k : TmuChan) (r : Reg)

@[simp] theorem resetBlock_intc : (resetBlock s).intc = intcReset s.cfg := rfl
@[simp] theorem resetBlock_refresh : (resetBlock s).refresh = s.cfg.reset.refresh := rfl
@[simp] theorem resetBlock_rtcDeadline :
    (resetBlock s).rtcDeadline = some (s.now + s.cfg.cycPerRtcTick) := rfl
@[simp] theorem resetBlock_gpio : (resetBlock s).gpio = s.cfg.reset.gpio := rfl
@[simp] theorem resetBlock_regs : (resetBlock s).regs = regsReset s.cfg := rfl
@[simp] theorem resetBlock_mem : (resetBlock s).mem = s.mem := rfl
@[simp] theorem resetBlock_now : (resetBlock s).now = s.now := rfl
@[simp] theorem resetBlock_cfg : (resetBlock s).cfg = s.cfg := rfl

@[simp] theorem resetBlock_chan : (resetBlock s).chan n = s.cfg.reset.dma :=
  Vector.getElem_replicate n.isLt

@[simp] theorem resetBlock_timer : (resetBlock s).timer k = s.cfg.reset.tmu :=
  Vector.getElem_replicate k.isLt

theorem resetBlock_reg (hs : s.cfg.separate = true) : (resetBlock s).reg r = s.cfg.resetValue r :=
  regsReset_index hs r

end

end Machine
end Sys2Proof
end

