-- ==== Sys2Proof/Tests/Slice0.lean ====
section
/-! SUPPORT. Tests on small states: ill-formed terms refused, words written out from the formats of
30_encoding R114 and R115 decoded, single steps with the results of spec/95_test_vectors.md, and for every
statement a state and operands that meet its premises. -/
namespace Sys2Proof.Tests
open Sys2Proof Sys2Proof.Machine

/-! ## Well-formedness: each check refuses a term that passes the others -/

/-- Well formed under the default parameters. -/
def wf (i : Instr) : Bool := i.wellFormed defaultConfig

/-- 0x0FD00000 has the index of `ICR` and lies outside the window (30_encoding R117). -/
theorem test_window_refuses :
    (BusAccess.mk false (some .icr) .long 0x0FD00000 0).windowOk defaultConfig = false ∧
    (BusAccess.mk false (some .icr) .long 0x0FD00000 0).laneFits = true ∧
    (BusAccess.mk false (some .icr) .long 0x0FD00000 0).indexFits defaultConfig = true ∧
    wf (Instr.rdIcr .long 0x0FD00000) = false ∧ wf (Instr.rdIcr .long 0x1FD00000) = true := by
  decide

/-- V-REG-9: a word at an odd address (20_memory R85). -/
theorem test_lane_refuses :
    (BusAccess.mk true (some (.ipr 0)) .word 0xFFD00005 0).windowOk defaultConfig = true ∧
    (BusAccess.mk true (some (.ipr 0)) .word 0xFFD00005 0).laneFits = false ∧
    (BusAccess.mk true (some (.ipr 0)) .word 0xFFD00005 0).indexFits defaultConfig = true ∧
    wf (Instr.wrIpra .word 0xFFD00005 0) = false ∧ wf (Instr.wrIpra .long 0xFFD00006 0) = false ∧
    wf (Instr.wrIpra .byte 0xFFD00005 0) = true ∧ wf (Instr.wrIpra .word 0xFFD00006 0) = true := by
  decide

/-- An address that selects another register, or a named one for a default (30_encoding R114). -/
theorem test_index_refuses :
    (BusAccess.mk false (some .icr) .long 0xFFD00004 0).windowOk defaultConfig = true ∧
    (BusAccess.mk false (some .icr) .long 0xFFD00004 0).laneFits = true ∧
    (BusAccess.mk false (some .icr) .long 0xFFD00004 0).indexFits defaultConfig = false ∧
    wf (Instr.rdIcr .long 0xFFD00004) = false ∧ wf (Instr.wrDefault .long 0xFFD00004 0) = false ∧
    wf (Instr.wrDefault .long 0xFF800100 0) = true := by
  decide

/-- `s < N_SRC` (30_encoding R117): 51 is a source of the default table, 52 is none. -/
theorem test_source_refuses :
    (Instr.request 52).sourceFits defaultConfig = false ∧ wf (Instr.request 52) = false ∧
    wf (Instr.unrequest 63) = false ∧ wf (Instr.raise 52) = false ∧
    wf (Instr.request 51) = true ∧ wf (Instr.raise 51) = true := by
  decide

/-- `dt >= 1` (30_encoding R119). -/
theorem test_advance_zero_refused :
    wf (Instr.advance 0) = false ∧ wf (Instr.advance 1) = true := by decide

/-! ## Decoding: one word for every operation, its fields written out -/

/-- A format B word: `rw`, `wc`, `addr`, `data` at bits 66, 65:64, 63:32, 31:0 (30_encoding R114). -/
def busWord (rw wc addr data : Nat) : Nat := rw * 2 ^ 66 + wc * 2 ^ 64 + addr * 2 ^ 32 + data

/-- The format on the encodings of program P1 (95_test_vectors, lines 2, 3, 8 and 10). -/
theorem test_busWord_as_in_programs :
    busWord 1 0 0xFFC8003C 0x01 = 0x4FFC8003C00000001 ∧ busWord 1 1 0xFFD0000C 0x7000 = 0x5FFD0000C00007000 ∧
    busWord 1 2 0xFFA0000C 0x5435 = 0x6FFA0000C00005435 ∧ busWord 0 2 0xFFA0000C 0 = 0x2FFA0000C00000000 := by
  decide

/-- The 13 port operations (30_encoding R115). -/
theorem test_decode_port : ∀ p ∈ ([
    (0x0100000009, .request 9),
    (0x0100000033, .request 51),
    (0x020000002B, .unrequest 43),
    (0x0300000000, .recompute),
    (0x0400000001, .boundary true),
    (0x0400000000, .boundary false),
    (0x0500000010, .raise 16),
    (0x1000000201, .setIrl 2 true),
    (0x1000000300, .setIrl 3 false),
    (0x11FFFFFFFF, .setIrln 0xFFFFFFFF),
    (0x1200000001, .setNmi true),
    (0x2000000003, .dmaData 3),
    (0x2100000001, .dmaDdt 1),
    (0x3000000028, .advance 40),
    (0x3100000002, .fire (.dma 2)),
    (0x3100000004, .fire (.tmu 0)),
    (0x3100000006, .fire (.tmu 2)),
    (0x3100000007, .fire .ref),
    (0x3100000008, .fire .rtc),
    (0x3F00000000, .reset)
  ] : List (Nat × Instr)), decodeTableWord 40 p.1 = some p.2 := by decide

theorem test_decode_intc : ∀ p ∈ ([
    (busWord 1 0 0xFF000028 0x1020304, .wrIntevt .byte 0xFF000028 0x1020304),
    (busWord 0 1 0xFF000028 0, .rdIntevt .word 0xFF000028),
    (busWord 1 1 0xFF000030 0x2040608, .wrPvr .word 0xFF000030 0x2040608),
    (busWord 0 2 0xFF000030 0, .rdPvr .long 0xFF000030),
    (busWord 1 2 0xFF000044 0x306090C, .wrPrr .long 0xFF000044 0x306090C),
    (busWord 0 0 0xFF000044 0, .rdPrr .byte 0xFF000044),
    (busWord 1 0 0xFFD00000 0x4080C10, .wrIcr .byte 0xFFD00000 0x4080C10),
    (busWord 0 1 0xFFD00000 0, .rdIcr .word 0xFFD00000),
    (busWord 1 1 0xFFD00004 0x50A0F14, .wrIpra .word 0xFFD00004 0x50A0F14),
    (busWord 0 2 0xFFD00004 0, .rdIpra .long 0xFFD00004),
    (busWord 1 2 0xFFD00008 0x60C1218, .wrIprb .long 0xFFD00008 0x60C1218),
    (busWord 0 0 0xFFD00008 0, .rdIprb .byte 0xFFD00008),
    (busWord 1 0 0xFFD0000C 0x70E151C, .wrIprc .byte 0xFFD0000C 0x70E151C),
    (busWord 0 1 0xFFD0000C 0, .rdIprc .word 0xFFD0000C),
    (busWord 1 1 0xFFD00010 0x8101820, .wrIprd .word 0xFFD00010 0x8101820),
    (busWord 0 2 0xFFD00010 0, .rdIprd .long 0xFFD00010),
    (busWord 1 2 0xFFD00014 0x9121B24, .wrRsvz .long 0xFFD00014 0x9121B24),
    (busWord 0 0 0xFFD00014 0, .rdRsvz .byte 0xFFD00014)
  ] : List (Nat × Instr)), decodeTableWord 72 p.1 = some p.2 := by decide

theorem test_decode_dma01 : ∀ p ∈ ([
    (busWord 1 0 0xFFA00000 0x1020304, .wrSar0 .byte 0xFFA00000 0x1020304),
    (busWord 0 1 0xFFA00000 0, .rdSar0 .word 0xFFA00000),
    (busWord 1 1 0xFFA00004 0x2040608, .wrDar0 .word 0xFFA00004 0x2040608),
    (busWord 0 2 0xFFA00004 0, .rdDar0 .long 0xFFA00004),
    (busWord 1 2 0xFFA00008 0x306090C, .wrDmatcr0 .long 0xFFA00008 0x306090C),
    (busWord 0 0 0xFFA00008 0, .rdDmatcr0 .byte 0xFFA00008),
    (busWord 1 0 0xFFA0000C 0x4080C10, .wrChcr0 .byte 0xFFA0000C 0x4080C10),
    (busWord 0 1 0xFFA0000C 0, .rdChcr0 .word 0xFFA0000C),
    (busWord 1 1 0xFFA00010 0x50A0F14, .wrSar1 .word 0xFFA00010 0x50A0F14),
    (busWord 0 2 0xFFA00010 0, .rdSar1 .long 0xFFA00010),
    (busWord 1 2 0xFFA00014 0x60C1218, .wrDar1 .long 0xFFA00014 0x60C1218),
    (busWord 0 0 0xFFA00014 0, .rdDar1 .byte 0xFFA00014),
    (busWord 1 0 0xFFA00018 0x70E151C, .wrDmatcr1 .byte 0xFFA00018 0x70E151C),
    (busWord 0 1 0xFFA00018 0, .rdDmatcr1 .word 0xFFA00018),
    (busWord 1 1 0xFFA0001C 0x8101820, .wrChcr1 .word 0xFFA0001C 0x8101820),
    (busWord 0 2 0xFFA0001C 0, .rdChcr1 .long 0xFFA0001C)
  ] : List (Nat × Instr)), decodeTableWord 72 p.1 = some p.2 := by decide

theorem test_decode_dma23 : ∀ p ∈ ([
    (busWord 1 0 0xFFA00020 0x1020304, .wrSar2 .byte 0xFFA00020 0x1020304),
    (busWord 0 1 0xFFA00020 0, .rdSar2 .word 0xFFA00020),
    (busWord 1 1 0xFFA00024 0x2040608, .wrDar2 .word 0xFFA00024 0x2040608),
    (busWord 0 2 0xFFA00024 0, .rdDar2 .long 0xFFA00024),
    (busWord 1 2 0xFFA00028 0x306090C, .wrDmatcr2 .long 0xFFA00028 0x306090C),
    (busWord 0 0 0xFFA00028 0, .rdDmatcr2 .byte 0xFFA00028),
    (busWord 1 0 0xFFA0002C 0x4080C10, .wrChcr2 .byte 0xFFA0002C 0x4080C10),
    (busWord 0 1 0xFFA0002C 0, .rdChcr2 .word 0xFFA0002C),
    (busWord 1 1 0xFFA00030 0x50A0F14, .wrSar3 .word 0xFFA00030 0x50A0F14),
    (busWord 0 2 0xFFA00030 0, .rdSar3 .long 0xFFA00030),
    (busWord 1 2 0xFFA00034 0x60C1218, .wrDar3 .long 0xFFA00034 0x60C1218),
    (busWord 0 0 0xFFA00034 0, .rdDar3 .byte 0xFFA00034),
    (busWord 1 0 0xFFA00038 0x70E151C, .wrDmatcr3 .byte 0xFFA00038 0x70E151C),
    (busWord 0 1 0xFFA00038 0, .rdDmatcr3 .word 0xFFA00038),
    (busWord 1 1 0xFFA0003C 0x8101820, .wrChcr3 .word 0xFFA0003C 0x8101820),
    (busWord 0 2 0xFFA0003C 0, .rdChcr3 .long 0xFFA0003C),
    (busWord 1 2 0xFFA00040 0x9121B24, .wrDmaor .long 0xFFA00040 0x9121B24),
    (busWord 0 0 0xFFA00040 0, .rdDmaor .byte 0xFFA00040)
  ] : List (Nat × Instr)), decodeTableWord 72 p.1 = some p.2 := by decide

theorem test_decode_tmu : ∀ p ∈ ([
    (busWord 1 0 0xFFD80004 0x1020304, .wrTstr .byte 0xFFD80004 0x1020304),
    (busWord 0 1 0xFFD80004 0, .rdTstr .word 0xFFD80004),
    (busWord 1 1 0xFFD80008 0x2040608, .wrTcor0 .word 0xFFD80008 0x2040608),
    (busWord 0 2 0xFFD80008 0, .rdTcor0 .long 0xFFD80008),
    (busWord 1 2 0xFFD8000C 0x306090C, .wrTcnt0 .long 0xFFD8000C 0x306090C),
    (busWord 0 0 0xFFD8000C 0, .rdTcnt0 .byte 0xFFD8000C),
    (busWord 1 0 0xFFD80010 0x4080C10, .wrTcr0 .byte 0xFFD80010 0x4080C10),
    (busWord 0 1 0xFFD80010 0, .rdTcr0 .word 0xFFD80010),
    (busWord 1 1 0xFFD80014 0x50A0F14, .wrTcor1 .word 0xFFD80014 0x50A0F14),
    (busWord 0 2 0xFFD80014 0, .rdTcor1 .long 0xFFD80014),
    (busWord 1 2 0xFFD80018 0x60C1218, .wrTcnt1 .long 0xFFD80018 0x60C1218),
    (busWord 0 0 0xFFD80018 0, .rdTcnt1 .byte 0xFFD80018),
    (busWord 1 0 0xFFD8001C 0x70E151C, .wrTcr1 .byte 0xFFD8001C 0x70E151C),
    (busWord 0 1 0xFFD8001C 0, .rdTcr1 .word 0xFFD8001C),
    (busWord 1 1 0xFFD80020 0x8101820, .wrTcor2 .word 0xFFD80020 0x8101820),
    (busWord 0 2 0xFFD80020 0, .rdTcor2 .long 0xFFD80020),
    (busWord 1 2 0xFFD80024 0x9121B24, .wrTcnt2 .long 0xFFD80024 0x9121B24),
    (busWord 0 0 0xFFD80024 0, .rdTcnt2 .byte 0xFFD80024),
    (busWord 1 0 0xFFD80028 0xA141E28, .wrTcr2 .byte 0xFFD80028 0xA141E28),
    (busWord 0 1 0xFFD80028 0, .rdTcr2 .word 0xFFD80028)
  ] : List (Nat × Instr)), decodeTableWord 72 p.1 = some p.2 := by decide

theorem test_decode_refresh_gpio : ∀ p ∈ ([
    (busWord 1 0 0xFF800004 0x1020304, .wrBcr2 .byte 0xFF800004 0x1020304),
    (busWord 0 1 0xFF800004 0, .rdBcr2 .word 0xFF800004),
    (busWord 1 1 0xFF800014 0x2040608, .wrMcr .word 0xFF800014 0x2040608),
    (busWord 0 2 0xFF800014 0, .rdMcr .long 0xFF800014),
    (busWord 1 2 0xFF80001C 0x306090C, .wrRtcsr .long 0xFF80001C 0x306090C),
    (busWord 0 0 0xFF80001C 0, .rdRtcsr .byte 0xFF80001C),
    (busWord 1 0 0xFF800020 0x4080C10, .wrRtcnt .byte 0xFF800020 0x4080C10),
    (busWord 0 1 0xFF800020 0, .rdRtcnt .word 0xFF800020),
    (busWord 1 1 0xFF800024 0x50A0F14, .wrRtcor .word 0xFF800024 0x50A0F14),
    (busWord 0 2 0xFF800024 0, .rdRtcor .long 0xFF800024),
    (busWord 1 2 0xFF800028 0x60C1218, .wrRfcr .long 0xFF800028 0x60C1218),
    (busWord 0 0 0xFF800028 0, .rdRfcr .byte 0xFF800028),
    (busWord 1 0 0xFF80002C 0x70E151C, .wrPctra .byte 0xFF80002C 0x70E151C),
    (busWord 0 1 0xFF80002C 0, .rdPctra .word 0xFF80002C),
    (busWord 1 1 0xFF800030 0x8101820, .wrPdtra .word 0xFF800030 0x8101820),
    (busWord 0 2 0xFF800030 0, .rdPdtra .long 0xFF800030),
    (busWord 1 2 0xFF800040 0x9121B24, .wrPctrb .long 0xFF800040 0x9121B24),
    (busWord 0 0 0xFF800040 0, .rdPctrb .byte 0xFF800040),
    (busWord 1 0 0xFF800044 0xA141E28, .wrPdtrb .byte 0xFF800044 0xA141E28),
    (busWord 0 1 0xFF800044 0, .rdPdtrb .word 0xFF800044)
  ] : List (Nat × Instr)), decodeTableWord 72 p.1 = some p.2 := by decide

theorem test_decode_clock : ∀ p ∈ ([
    (busWord 1 0 0xFFC80000 0x1020304, .wrR64cnt .byte 0xFFC80000 0x1020304),
    (busWord 0 1 0xFFC80000 0, .rdR64cnt .word 0xFFC80000),
    (busWord 1 1 0xFFC80004 0x2040608, .wrRseccnt .word 0xFFC80004 0x2040608),
    (busWord 0 2 0xFFC80004 0, .rdRseccnt .long 0xFFC80004),
    (busWord 1 2 0xFFC80008 0x306090C, .wrRmincnt .long 0xFFC80008 0x306090C),
    (busWord 0 0 0xFFC80008 0, .rdRmincnt .byte 0xFFC80008),
    (busWord 1 0 0xFFC8000C 0x4080C10, .wrRhrcnt .byte 0xFFC8000C 0x4080C10),
    (busWord 0 1 0xFFC8000C 0, .rdRhrcnt .word 0xFFC8000C),
    (busWord 1 1 0xFFC80010 0x50A0F14, .wrRwkcnt .word 0xFFC80010 0x50A0F14),
    (busWord 0 2 0xFFC80010 0, .rdRwkcnt .long 0xFFC80010),
    (busWord 1 2 0xFFC80014 0x60C1218, .wrRdaycnt .long 0xFFC80014 0x60C1218),
    (busWord 0 0 0xFFC80014 0, .rdRdaycnt .byte 0xFFC80014),
    (busWord 1 0 0xFFC80018 0x70E151C, .wrRmoncnt .byte 0xFFC80018 0x70E151C),
    (busWord 0 1 0xFFC80018 0, .rdRmoncnt .word 0xFFC80018),
    (busWord 1 1 0xFFC8001C 0x8101820, .wrRyrcnt .word 0xFFC8001C 0x8101820),
    (busWord 0 2 0xFFC8001C 0, .rdRyrcnt .long 0xFFC8001C),
    (busWord 1 2 0xFFC80038 0x9121B24, .wrRcr1 .long 0xFFC80038 0x9121B24),
    (busWord 0 0 0xFFC80038 0, .rdRcr1 .byte 0xFFC80038),
    (busWord 1 0 0xFFC8003C 0xA141E28, .wrRcr2 .byte 0xFFC8003C 0xA141E28),
    (busWord 0 1 0xFFC8003C 0, .rdRcr2 .word 0xFFC8003C)
  ] : List (Nat × Instr)), decodeTableWord 72 p.1 = some p.2 := by decide

theorem test_decode_default :
    decodeTableWord 72 (busWord 1 2 0xFF800100 0x7) = some (.wrDefault .long 0xFF800100 0x7) ∧
    decodeTableWord 72 (busWord 0 0 0xFF000000 0) = some (.rdDefault .byte 0xFF000000) := by decide

/-- V-REG-4, V-REG-5: aliases select the same register (20_memory R81). -/
theorem test_decode_alias :
    regIndex defaultConfig 0xFFD00004 = 0x3A01 ∧ regIndex defaultConfig 0xFFD00006 = 0x3A01 ∧ regIndex defaultConfig 0xFFD0FF04 = 0x3A01 ∧
    regIndex defaultConfig 0x1FD00004 = 0x3A01 ∧
    decodeTableWord 72 (busWord 1 1 0x1FD0000C 0x7000) = some (.wrIprc .word 0x1FD0000C 0x7000) := by decide

/-- The reason a word is refused for. -/
def refusedFor (w : RawOp) : Option DecodeError :=
  match decode defaultConfig w with
  | .ok _ => none
  | .error e => some e

/-- 30_encoding R117: the reserved codes are refused by name. -/
theorem test_decode_refuses :
    refusedFor (.p 0x0100000034) = some (.badSource 52) ∧ refusedFor (.p 0x3100000009) = some (.badTimer 9) ∧
    refusedFor (.p 0x0600000000) = some (.unknownOp 6) ∧ refusedFor (.p 0x0000000000) = some (.unknownOp 0) ∧
    refusedFor (.b 0x7FFD0000C00000000) = some .badWidth := by decide

/-- The encoder gives the same words back. -/
theorem test_encode_words :
    encode (.setIrl 2 true) = .p 0x1000000201 ∧ encode (.fire .rtc) = .p 0x3100000008 ∧
    encode (.wrIprc .word 0xFFD0000C 0x7000) = .b 0x5FFD0000C00007000 ∧
    encode (.rdTcnt0 .long 0xFFD8000C) = .b 0x2FFD8000C00000000 := by decide

/-! ## Small states -/

/-- The state with registers set. -/
def withRegs (l : List (Reg × Word)) (s : State) : State := l.foldl (fun s p => s.setReg p.1 p.2) s

/-- The state with the status register set. -/
def withSr (sr : Word) (s : State) : State := s.setCpu { s.cpu with sr := sr }

/-- The state with sources requesting, and the two flags as the block keeps them. -/
def withRequests (l : List Source) (s : State) : State :=
  let asked := l.foldl (fun (r : Vector Bool 64) (x : Source) => r.set x true) s.intc.requesting
  recompute (s.setIntc { s.intc with requesting := asked, pending := !l.isEmpty })

/-- The state with bytes of system memory from an address on. -/
def withBytes (a : Nat) (bs : List Byte) (s : State) : State :=
  s.setMem (bs.zipIdx.foldl (fun m p => setByte m (BitVec.ofNat 32 (a + p.2)) p.1) s.mem)

/-- The start state of the vectors: after `RESET`, the clock stopped (95_test_vectors, section 0). -/
def base : State := withSr 0x40000000 ({ State.reset with rtcDeadline := none }.setReg .rcr2 0x01)

/-- The next state passes the test. -/
def answers (r : Result) (p : State → Bool) : Bool :=
  match r with
  | .next t => p t
  | _ => false

/-- The sources that request. -/
def requests (s : State) : List Nat := (allSources.filter fun x => s.intc.requesting[x]).map (·.val)

/-- `n` bytes of memory from an address on. -/
def bytes (s : State) (a n : Nat) : List Byte := (List.range n).map fun k => byteAt s.mem (BitVec.ofNat 32 (a + k))

/-- The bytes 1, 2, .. n. -/
def counting (n : Nat) : List Byte := (List.range n).map fun k => BitVec.ofNat 8 (k + 1)

/-- A nibble of priority register C holds `v`: `DMTE0` has sub-priority `v`. -/
def withDmte0 (v : Nat) (s : State) : State := s.setIntc { s.intc with prio := s.intc.prio.set 44 ⟨0, v⟩ }

/-! ## The interrupt controller, from 95_test_vectors sections 1 and 2 -/

/-- S-8. -/
theorem test_request_illegal_instruction :
    answers (exec (.request 9) (withSr 0x40000020 base))
      (fun t => decide (requests t = [9] ∧ t.intc.pending = true ∧ t.intc.test = true)) = true := by decide

/-- V-INTC-2: sub-priority 0 exceeds no mask. -/
theorem test_request_subpriority_zero :
    answers (exec (.request 45) base)
      (fun t => decide (requests t = [45] ∧ t.intc.pending = true ∧ t.intc.test = false)) = true := by decide

/-- S-1. -/
theorem test_unrequest_undoes :
    answers (exec (.unrequest 40) (withRequests [9, 40] base)) (fun t => decide (t = withRequests [9] base)) = true ∧
    answers (exec (.unrequest 9) (withRequests [9] base)) (fun t => decide (t = base)) = true := by decide

/-- V-INTC-1: rank 112 against the masks 6, 7 and 8. -/
theorem test_recompute_mask :
    answers (exec .recompute (withSr 0x40000060 (withRequests [44] (withDmte0 7 base)))) (·.intc.test) = true ∧
    answers (exec .recompute (withSr 0x40000070 (withRequests [44] (withDmte0 7 base)))) (!·.intc.test) = true ∧
    answers (exec .recompute (withSr 0x40000080 (withRequests [44] (withDmte0 7 base)))) (!·.intc.test) = true := by
  decide

/-- V-INTC-9: a delayed boundary does nothing, the next one dispatches source 44. -/
theorem test_boundary :
    answers (exec (.boundary true) (withRequests [44] (withDmte0 7 base)))
      (fun t => decide (t = withRequests [44] (withDmte0 7 base))) = true ∧
    answers (exec (.boundary false) (withRequests [44] (withDmte0 7 base)))
      (fun t => decide (t.cpu.pc = 0x600 ∧ t.reg .intevt = 0x640 ∧ requests t = [])) = true := by decide

/-- V-INTC-4b: NMI through `ICR.NMIB` although blocked. -/
theorem test_raise_nmi :
    answers (exec (.raise 16) (withRequests [16] (withRegs [(.icr, 0x200)] (base.setCpu { cpuReset with
      sr := 0x500000F0, pc := 0x8C002000, vbr := 0x8C000000, r15 := 0x8C00F000 }))))
      (fun t => decide (t.reg .intevt = 0x1C0 ∧ t.outputs = [.irqAck 32, .diag (.nmiRaised 16)] ∧
        requests t = [] ∧ t.intc.pending = false ∧ t.intc.test = false ∧ t.cpu.spc = 0x8C002000 ∧
        t.cpu.ssr = 0x500000F0 ∧ t.cpu.sgr = 0x8C00F000 ∧ t.cpu.sr = 0x700000F0 ∧ t.cpu.pc = 0x8C000600)) = true := by
  decide

/-- V-INTC-14: the target wraps; a source that is not cleared by dispatch goes on requesting. -/
theorem test_raise_wraps :
    answers (exec (.raise 9) (withRequests [9] (base.setCpu { base.cpu with vbr := 0xFFFFFF00, sleep := .sleeping })))
      (fun t => decide (t.reg .intevt = 0x180 ∧ t.cpu.pc = 0 ∧ requests t = [9] ∧ t.intc.test = false ∧
        t.cpu.sleep = .wakePending)) = true := by decide

/-- S-2, V-INTC-5b: the highest rank wins, the higher id on a tie; NMI above all. -/
theorem test_select :
    select (withRequests [0, 4, 5, 15] base) = some 15 ∧ select (withRequests [0, 4, 5, 15, 16] base) = some 16 ∧
    select (withRequests [36, 37] base) = some 37 ∧ select base = none := by decide

/-- R153: the default source table passes the check; with the rank of source 15 given to 14 it does not. -/
theorem test_source_table :
    defaultConfig.tableOk = true ∧
    ({ defaultConfig with srcLow := defaultSrcLow.set 14 (.fault 10) } : Config).tableOk = false := by decide

/-- R152: the (level, sub) or the nibble of the 52 sources. -/
theorem test_source_priorities :
    ((List.finRange 64).filter fun x : Source => decide (x.val < defaultConfig.nSrc)).map defaultConfig.srcEntry =
      [.fixed 1 0, .fixed 1 1, .fixed 1 2, .fixed 1 3, .fixed 1 4, .fixed 2 0, .fixed 2 1, .fixed 2 2,
       .fixed 2 3, .fixed 2 4, .fixed 2 5, .fixed 2 6, .fixed 2 7, .fixed 2 8, .fixed 2 9, .fixed 2 10,
       .fixed 3 16, .fixed 0 15, .fixed 0 14, .fixed 0 13, .fixed 0 12, .fixed 0 11, .fixed 0 10,
       .fixed 0 9, .fixed 0 8, .fixed 0 7, .fixed 0 6, .fixed 0 5, .fixed 0 4, .fixed 0 3, .fixed 0 2,
       .fixed 0 1, .fixed 0 13, .fixed 0 10, .fixed 0 7, .fixed 0 4, .nibble 0 3, .nibble 0 2,
       .nibble 0 1, .nibble 0 0, .nibble 1 3, .nibble 1 2, .nibble 1 1, .nibble 1 0, .nibble 2 3,
       .nibble 2 2, .nibble 2 1, .nibble 2 0, .nibble 3 3, .nibble 3 2, .nibble 3 1, .nibble 3 0] := by decide

/-- A `RegIndex` that puts every register on one cell. -/
def oneCell : Config := { defaultConfig with map := { defaultMap with scramble := ⟨[], []⟩ } }

/-- 70_reset_and_hazards R370: on one cell the assignment that comes last stays, `TCNT2`'s; log 5. -/
theorem test_reset_shared_cell :
    regsReset oneCell = [(0, 0xFFFFFFFF)] ∧
    regsReset { oneCell with reset := { defaultReset with regs := [(.tcor 0, 0xFFFFFFFF), (.rcr2, 0x09)] } }
      = [(0, 0x09)] := by decide

/-- V-INTC-8a, V-INTC-8b. -/
theorem test_setIrl :
    answers (exec (.setIrl 0 true) base) (fun t => decide (t = base)) = true ∧
    answers (exec (.setIrl 3 true) (withRegs [(.icr, 0x80)] base))
      (fun t => decide (requests t = [35] ∧ t.intc.irlLine = #v[false, false, false, true])) = true := by decide

/-- V-INTC-7a, V-INTC-7b. -/
theorem test_setIrln :
    answers (exec (.setIrln 3) (withRequests [17] base))
      (fun t => decide (requests t = [20] ∧ t.intc.irlLevel = 3 ∧ t.intc.test = true)) = true ∧
    answers (exec (.setIrln 15) (withRequests [20] base))
      (fun t => decide (requests t = [] ∧ t.intc.pending = false ∧ t.intc.test = false)) = true ∧
    answers (exec (.setIrln 0xFFFFFFFF) base)
      (fun t => decide (t.outputs = [.diag (.irlLevelOversize (-1))] ∧ t.intc = base.intc)) = true := by decide

/-- A channel in flight. -/
def inFlight (deadline : Time) : DmaChannel := { defaultReset.dma with active := true, deadline := some deadline }

/-- V-DMA-14: NMI latches `NMIF` and cancels channel 1. -/
theorem test_setNmi :
    answers (exec (.setNmi true) ((withRegs [(.dmaor, 0x1), (.chcr 1, 0x5431), (.dmatcr 1, 8)] base).setChan 1 (inFlight 17)))
      (fun t => decide (t.reg .dmaor = 0x3 ∧ t.chan 1 = defaultReset.dma ∧ t.outputs = [.diag (.dmaCancelledByNmi 1)] ∧
        t.reg (.chcr 1) = 0x5431 ∧ t.reg (.dmatcr 1) = 8 ∧ requests t = [16] ∧ t.intc.test = true)) = true := by
  decide

/-- S-7, V-INTC-13. -/
theorem test_wrIprc :
    answers (exec (.wrIprc .word 0xFFD0000C 0x1234) base)
      (fun t => decide ((allSources.filter fun x => t.intc.prio[x] ≠ base.intc.prio[x]).map (·.val) = [44, 45, 46, 47] ∧
        t.intc.prio[44] = ⟨0, 1⟩ ∧ t.intc.prio[45] = ⟨0, 2⟩ ∧ t.intc.prio[46] = ⟨0, 3⟩ ∧ t.intc.prio[47] = ⟨0, 4⟩)) = true ∧
    answers (exec (.wrIprc .byte 0xFFD0000D 0xAB) (withRegs [(.ipr 2, 0x1234)] base))
      (fun t => decide (t.reg (.ipr 2) = 0xAB34 ∧ t.intc.prio[44] = ⟨0, 10⟩ ∧ t.intc.prio[47] = ⟨0, 4⟩)) = true := by
  decide

/-- V-INTC-4b: setting `ICR.NMIB` lets the blocked NMI pass. -/
theorem test_wrIcr :
    answers (exec (.wrIcr .word 0xFFD00000 0x200) (withSr 0x500000F0 (withRequests [16] (withSr 0x500000F0 base))))
      (fun t => decide (t.reg .icr = 0x200 ∧ t.intc.test = true)) = true := by decide

/-! ## The DMA controller, from section 3 -/

/-- The channel registers of S-3. -/
def burstSetup : State :=
  withBytes 0x0C000000 (counting 16)
    (withRegs [(.dmaor, 1), (.sar 0, 0x0C000000), (.dar 0, 0x0C001000), (.dmatcr 0, 4)] base)

/-- S-3, step 2. -/
theorem test_wrChcr0_burst :
    answers (exec (.wrChcr0 .long 0xFFA0000C 0x5431) burstSetup)
      (fun t => decide (bytes t 0x0C001000 17 = counting 16 ++ [0] ∧ t.chan 0 = inFlight 9 ∧
        t.reg (.chcr 0) = 0x5431 ∧ t.reg (.dmatcr 0) = 4 ∧ t.reg (.sar 0) = 0x0C000000)) = true := by decide

/-- V-DMA-4, V-DMA-5: a bad increment, a bad size. -/
theorem test_wrChcr0_fails :
    answers (exec (.wrChcr0 .long 0xFFA0000C 0xF431) burstSetup)
      (fun t => decide (t.outputs = [.diag (.dmaBadIncrement 0)] ∧ t.chan 0 = defaultReset.dma ∧ t.mem = burstSetup.mem)) = true ∧
    answers (exec (.wrChcr0 .long 0xFFA0000C 0x5451) burstSetup)
      (fun t => decide (t.outputs = [.diag (.dmaBadSize 0)] ∧ t.chan 0 = defaultReset.dma)) = true := by decide

/-- V-DMA-2: 2-byte units, decrement on both sides. -/
theorem test_wrChcr1_decrement :
    answers (exec (.wrChcr1 .long 0xFFA0001C 0xA421) (withBytes 0x0C000100 (counting 8)
      (withRegs [(.dmaor, 1), (.sar 1, 0x0C000106), (.dar 1, 0x0C000206), (.dmatcr 1, 3)] base)))
      (fun t => decide (bytes t 0x0C000200 8 = [1, 2, 3, 4, 5, 6, 0, 0] ∧ (t.chan 1).deadline = some 7)) = true := by
  decide

/-- V-DMA-17, V-DMA-9: a device start, and no start with the transfer-end flag set. -/
theorem test_wrChcr2_device :
    answers (exec (.wrChcr2 .long 0xFFA0002C 0x4321) (withRegs [(.dmaor, 1), (.dar 2, 0x0C000500), (.dmatcr 2, 3)] base))
      (fun t => decide (t.outputs = [.dmaReady 2 3] ∧
        t.chan 2 = ⟨true, .device, none, 0, 0x0C000500, 3, 2, .fixed, .increment, 3⟩)) = true ∧
    answers (exec (.wrChcr2 .long 0xFFA0002C 0x4323) (withRegs [(.dmaor, 1), (.dmatcr 2, 3)] base))
      (fun t => decide (t.outputs = [] ∧ t.chan 2 = defaultReset.dma)) = true := by decide

/-- V-DMA-6: the addresses are masked and aligned down. -/
theorem test_wrSar3_masks :
    answers (exec (.wrSar3 .long 0xFFA00030 0x8C000002) (withBytes 0x0C000000 (counting 5)
      (withRegs [(.dmaor, 1), (.dar 3, 0xAC001003), (.dmatcr 3, 1), (.chcr 3, 0x5431)] base)))
      (fun t => decide (bytes t 0x0C001000 5 = [1, 2, 3, 4, 0] ∧ (t.chan 3).deadline = some 3)) = true := by decide

/-- V-DMA-11, V-DMA-13: software cannot set the error flags; clearing `DME` cancels channels 0 and 3. -/
theorem test_wrDmaor :
    answers (exec (.wrDmaor .long 0xFFA00040 0x7) base) (fun t => decide (t.reg .dmaor = 0x1)) = true ∧
    answers (exec (.wrDmaor .long 0xFFA00040 0x0)
      (((withRegs [(.dmaor, 1), (.chcr 0, 0x5431), (.chcr 3, 0x5431)] base).setChan 0 (inFlight 5)).setChan 3 (inFlight 5)))
      (fun t => decide (t.chan 0 = defaultReset.dma ∧ t.chan 3 = defaultReset.dma ∧
        t.outputs = [.diag (.dmaCancelledByDisable 0), .diag (.dmaCancelledByDisable 3)])) = true := by decide

/-- The channel of S-9 before the pump call, with a count of 2. -/
def pumping : State :=
  (withBytes 0x0C000000 (counting 8) base).setChan 0 ⟨true, .device, none, 0x0C000000, 0, 2, 4, .increment, .fixed, 2⟩

/-- S-9, step 3; V-DMA-19. -/
theorem test_dmaData_to_device :
    answers (exec (.dmaData 0) (pumping.setPort ⟨[0, 0, 9], recordEmpty⟩))
      (fun t => decide (t.port.buffer = [0x04030201, 0x08070605, 9] ∧ t.outputs = [.pumpResult 0 .complete] ∧
        t.chan 0 = ⟨true, .device, some 0, 0x0C000008, 0, 0, 4, .increment, .fixed, 2⟩)) = true ∧
    answers (exec (.dmaData 0) pumping)
      (fun t => decide (t.outputs = [.pumpResult 0 .partialTransfer] ∧ t.chan 0 = pumping.chan 0)) = true := by decide

/-- V-DMA-17, V-DMA-18: the device's words go to memory; an idle channel answers `NotActive`. -/
theorem test_dmaData_to_memory :
    answers (exec (.dmaData 2) ((base.setChan 2 ⟨true, .device, none, 0, 0x0C000500, 3, 2, .fixed, .increment, 3⟩).setPort
      ⟨[0x1111, 0x2222], recordEmpty⟩))
      (fun t => decide (bytes t 0x0C000500 5 = [0x11, 0x11, 0x22, 0x22, 0] ∧
        t.outputs = [.pumpResult 2 .partialTransfer] ∧ (t.chan 2).devDst = 0x0C000504 ∧ (t.chan 2).devCount = 1)) = true ∧
    answers (exec (.dmaData 1) base) (fun t => decide (t.outputs = [.pumpResult 1 .notActive])) = true := by decide

/-- The record of V-DMA-20 and V-DMA-21. -/
def directRecord (length : Nat) : DdtRecord :=
  { recordEmpty with source := 0x0C000000, destination := 0x0C003000, length := length, size := 4 }

/-- The state of V-DMA-20. -/
def directSetup (p : DdtRecord) : State :=
  (withBytes 0x0C000000 (counting 16) (withRegs [(.dmatcr 0, 4), (.chcr 0, 0x5430)] base)).setPort ⟨[], p⟩

/-- V-DMA-20, V-DMA-21. -/
theorem test_dmaDdt_copies :
    answers (exec (.dmaDdt 0) (directSetup (directRecord 4)))
      (fun t => decide (bytes t 0x0C003000 16 = counting 16 ∧ t.port.record.source = 0x0C000010 ∧
        t.port.record.destination = 0x0C003010 ∧ t.reg (.dmatcr 0) = 4 ∧ t.chan 0 = defaultReset.dma)) = true ∧
    answers (exec (.dmaDdt 0) (directSetup (directRecord 3)))
      (fun t => decide (t = directSetup (directRecord 3))) = true := by decide

/-- The record of V-DMA-23. -/
def rawRecord : DdtRecord :=
  { recordEmpty with
    raw := true
    size := 4
    direction := .toMemory
    length := 2
    destination := 0x0C000100
    buffer := [0x11111111, 0x22222222] }

/-- V-DMA-23. -/
theorem test_dmaDdt_raw :
    answers (exec (.dmaDdt 0) (base.setPort ⟨[], rawRecord⟩))
      (fun t => decide (bytes t 0x0C000100 9 = [0x11, 0x11, 0x11, 0x11, 0x22, 0x22, 0x22, 0x22, 0] ∧
        t.port.record.destination = 0x0C000108)) = true := by decide

/-! ## Time and the timers, from sections 4 and 6 -/

/-- V-TIME-1. -/
theorem test_advance :
    exec (.advance 2) State.reset = .refused .notEnabled ∧
    answers (exec (.advance 1) State.reset) (fun t => decide (t = { State.reset with now := 1 })) = true := by
  exact ⟨rfl, by decide⟩

/-- S-3, step 3; P2, line 11; V-TIME-2. -/
theorem test_fire_dma_tmu :
    answers (exec (.fire (.dma 0)) ((withRegs [(.chcr 0, 0x5431), (.dmatcr 0, 4)] { base with now := 9 }).setChan 0 (inFlight 9)))
      (fun t => decide (t.reg (.dmatcr 0) = 0 ∧ t.reg (.chcr 0) = 0x5433 ∧ t.chan 0 = defaultReset.dma ∧ requests t = [])) = true ∧
    answers (exec (.fire (.tmu 0)) ((withRegs [(.tcor 0, 10), (.tcnt 0, 3), (.tcr 0, 0x20), (.tstr, 1)]
      { base with now := 12 }).setTimer 0 ⟨some 12, 0⟩))
      (fun t => decide (t.reg (.tcnt 0) = 10 ∧ t.timer 0 = ⟨some 52, 12⟩ ∧ t.reg (.tcr 0) = 0x120 ∧ requests t = [36])) = true := by
  decide

/-- V-REF-3; P3, line 13. -/
theorem test_fire_ref_rtc :
    answers (exec (.fire .ref) ((withRegs [(.mcr, 4), (.rfcr, 511), (.rtcor, 1), (.rtcsr, 9)]
      { base with now := 4 }).setRefresh ⟨some 4, 0, 0⟩))
      (fun t => decide (t.reg .rfcr = 0 ∧ t.reg .rtcsr = 0x8D ∧ t.reg .rtcnt = 0 ∧ t.refresh = ⟨some 8, 4, 0⟩)) = true ∧
    answers (exec (.fire .rtc) (withRegs [(.rseccnt, 0x59), (.rmincnt, 0x59), (.rhrcnt, 0x23), (.rwkcnt, 5),
      (.rdaycnt, 0x31), (.rmoncnt, 0x12), (.ryrcnt, 0x1999), (.r64cnt, 63), (.rcr2, 9)]
      { State.reset with now := 1001, rtcDeadline := some 1001 }))
      (fun t => decide (t.reg .r64cnt = 64 ∧ t.reg .rcr1 = 0x80 ∧ t.calendar = ⟨0, 0, 0, 6, 1, 1, 0x2000⟩ ∧
        t.rtcDeadline = some 1002 ∧ requests t = [])) = true := by decide

/-- V-TMU-1, V-TMU-9: a start arms from the count, a stop stores the live count and drops a due expiry. -/
theorem test_wrTstr :
    answers (exec (.wrTstr .byte 0xFFD80004 1) (withRegs [(.tcnt 0, 0)] base))
      (fun t => decide (t.timer 0 = ⟨some 4, 0⟩)) = true ∧
    answers (exec (.wrTstr .byte 0xFFD80004 0) ((withRegs [(.tcnt 0, 2), (.tstr, 1)] { base with now := 8 }).setTimer 0 ⟨some 8, 0⟩))
      (fun t => decide (t.reg (.tcnt 0) = 0 ∧ (t.timer 0).deadline = none ∧ t.reg (.tcr 0) = 0)) = true := by decide

/-- V-TMU-3: the live count, and one byte of it. -/
theorem test_rdTcnt0 :
    answers (exec (.rdTcnt0 .long 0xFFD8000C) ((withRegs [(.tcnt 0, 1000), (.tstr, 1)] { base with now := 1003 }).setTimer 0 ⟨some 4000, 0⟩))
      (fun t => decide (t.outputs = [.readData 750] ∧ t.reg (.tcnt 0) = 1000)) = true ∧
    answers (exec (.rdTcnt0 .byte 0xFFD8000D) ((withRegs [(.tcnt 0, 1000), (.tstr, 1)] { base with now := 1003 }).setTimer 0 ⟨some 4000, 0⟩))
      (fun t => decide (t.outputs = [.readData 2])) = true := by decide

/-- V-TMU-4, V-TMU-5: the snapshot uses the old prescaler, a reserved one stops the count. -/
theorem test_wrTcr :
    answers (exec (.wrTcr0 .word 0xFFD80010 1) ((withRegs [(.tcnt 0, 1000), (.tstr, 1)] { base with now := 400 }).setTimer 0 ⟨some 4000, 0⟩))
      (fun t => decide (t.reg (.tcnt 0) = 900 ∧ t.timer 0 = ⟨some 14800, 400⟩)) = true ∧
    answers (exec (.wrTcr2 .word 0xFFD80028 0) (withRegs [(.tcnt 2, 10), (.tcr 2, 5), (.tstr, 4)] { base with now := 100 }))
      (fun t => decide (t.timer 2 = ⟨some 140, 100⟩)) = true := by decide

/-- V-TMU-7: a byte write merges into the stored count. -/
theorem test_wrTcnt0 :
    answers (exec (.wrTcnt0 .byte 0xFFD8000C 0x10) ((withRegs [(.tcnt 0, 7), (.tstr, 1)] { base with now := 44 }).setTimer 0 ⟨some 68, 40⟩))
      (fun t => decide (t.reg (.tcnt 0) = 0x10 ∧ t.timer 0 = ⟨some 108, 44⟩)) = true := by decide

/-- V-REF-1, S-6: a full turn when the count equals the compare value; the snapshot. -/
theorem test_wrRtcsr :
    answers (exec (.wrRtcsr .word 0xFF80001C 8) (withRegs [(.rtcor, 0x20), (.rtcnt, 0x20)] base))
      (fun t => decide (t.refresh = ⟨some 1024, 0, 32⟩)) = true ∧
    answers (exec (.wrRtcsr .word 0xFF80001C 0x10)
      ((withRegs [(.rtcor, 200), (.rtcsr, 8)] { base with now := 100 }).setRefresh ⟨some 800, 0, 0⟩))
      (fun t => decide (t.reg .rtcnt = 25 ∧ t.refresh = ⟨some 2900, 100, 25⟩)) = true := by decide

/-- The start of V-REF-8 and V-REF-9. -/
def refreshing : State := (withRegs [(.rtcor, 100), (.rtcsr, 8)] { base with now := 40 }).setRefresh ⟨some 400, 0, 0⟩

/-- V-REF-8, V-REF-9, V-REF-10. -/
theorem test_refresh_writes :
    answers (exec (.wrRtcor .word 0xFF800024 5) refreshing)
      (fun t => decide (t.reg .rtcnt = 10 ∧ t.refresh = ⟨some 1044, 40, 10⟩)) = true ∧
    answers (exec (.wrRtcnt .word 0xFF800020 0x1F0) refreshing)
      (fun t => decide (t.reg .rtcnt = 0xF0 ∧ t.refresh.deadline = some 504)) = true ∧
    answers (exec (.wrRfcr .long 0xFF800028 0xFFFFFFFF) base) (fun t => decide (t.reg .rfcr = 0x3FF)) = true := by decide

/-- V-REF-2: the live read. -/
theorem test_rdRtcnt :
    answers (exec (.rdRtcnt .byte 0xFF800020)
      ((withRegs [(.rtcor, 0x10), (.rtcnt, 0xF0), (.rtcsr, 0x10)] { base with now := 325 }).setRefresh ⟨some 512, 0, 240⟩))
      (fun t => decide (t.outputs = [.readData 4])) = true := by decide

/-- V-RTC-3, V-RTC-4. -/
theorem test_wrRcr2 :
    answers (exec (.wrRcr2 .byte 0xFFC8003C 0x0B) (withRegs [(.r64cnt, 77)] State.reset))
      (fun t => decide (t.reg .r64cnt = 0 ∧ t.reg .rcr2 = 9 ∧ t.rtcDeadline = some 1)) = true ∧
    answers (exec (.wrRcr2 .byte 0xFFC8003C 0x0D)
      (withRegs [(.r64cnt, 77), (.rseccnt, 0x30), (.rmincnt, 0x59), (.rhrcnt, 0x10)] State.reset))
      (fun t => decide (t.reg .r64cnt = 0 ∧ t.reg .rseccnt = 0 ∧ t.reg .rmincnt = 0 ∧ t.reg .rhrcnt = 0x11 ∧
        t.reg .rcr2 = 9)) = true := by decide

/-- The calendar after `CAL_INC(from_seconds)` from the values of the seven registers. -/
def nextSecond (values : List Word) : Calendar := (incSecond (withRegs (calendarRegs.zip values) base)).calendar

/-- S-5, V-CAL-1 to V-CAL-4, V-CAL-7. -/
theorem test_calendar :
    nextSecond [0x59, 0x59, 0x23, 3, 0x28, 2, 0x2001] = ⟨0, 0, 0, 4, 1, 3, 0x2001⟩ ∧
    nextSecond [0x59, 0x59, 0x23, 3, 0x28, 2, 0x2000] = ⟨0, 0, 0, 4, 0x29, 2, 0x2000⟩ ∧
    nextSecond [0x59, 0x59, 0x23, 6, 0x31, 0x12, 0x9999] = ⟨0, 0, 0, 0, 1, 1, 0⟩ ∧
    nextSecond [0x59, 0x59, 0x23, 0, 0x28, 2, 0x1900] = ⟨0, 0, 0, 1, 1, 3, 0x1900⟩ ∧
    nextSecond [0x59, 0x59, 0x23, 0, 0x30, 4, 0x2024] = ⟨0, 0, 0, 1, 1, 5, 0x2024⟩ ∧
    nextSecond [0x59, 0x59, 0x23, 0, 0, 0, 0] = ⟨0, 0, 0, 1, 1, 1, 0⟩ := by decide

/-- `r` stands on the cell of `q`, by a `RegIndex` that differs from the default one at the address of `r`. -/
def shared (r q : Reg) : State :=
  { base with cfg := { defaultConfig with map := { defaultMap with scramble :=
      { defaultScramble with others := [(defaultAddr r, BitVec.ofNat 14 (defaultConfig.index q))] } } } }

/-- R256, R265, R268 on one cell, by hand from the order of their statements: `RFCR` is stored before `LMTS` is
tested and 0 when `OVF` is set; `R64CNT` is cleared before `RESET` is, and `START` with it; the minute counts what
the carry of the second left. -/
theorem test_shared_cell_order :
    answers (exec (.fire .ref) ((withRegs [(.mcr, 4), (.rtcsr, 0x37F)] (shared .rfcr .rtcsr)).setRefresh ⟨some 0, 0, 0⟩))
      (fun t => decide (t.reg .rtcsr = 4 ∧ t.reg .rfcr = 4)) = true ∧
    answers (exec (.wrRcr2 .long 0xFFC8003C 0x0B) (shared .r64cnt .rcr2))
      (fun t => decide (t.reg .rcr2 = 0 ∧ t.rtcDeadline = none)) = true ∧
    (incSecond (withRegs [(.rseccnt, 0x59)] (shared .rmincnt .rseccnt))).reg .rmincnt = 1 ∧
    (incSecond (withRegs [(.rseccnt, 0x19)] (shared .rmincnt .rseccnt))).reg .rseccnt = 0x20 := by decide

/-! ## The register file, the pins and reset, from sections 5 and 6 -/

/-- V-REG-1, V-REG-2: the hard-wired registers. -/
theorem test_hard_wired :
    answers (exec (.rdPvr .word 0xFF000032) base) (fun t => decide (t.outputs = [.readData 0x0402])) = true ∧
    answers (exec (.wrPvr .long 0xFF000030 0x12345678) base) (fun t => decide (t = base)) = true ∧
    answers (exec (.wrRsvz .long 0xFFD00014 0xFFFFFFFF) base) (fun t => decide (t = base)) = true ∧
    answers (exec (.rdPrr .long 0xFF000044) base) (fun t => decide (t.outputs = [.readData 0])) = true := by decide

/-- V-REG-3: an unnamed address is a plain cell; its write is logged. -/
theorem test_default :
    answers (exec (.wrDefault .byte 0xFF000001 0x77) (base.setCell 0x2000 0x1234BEEF))
      (fun t => decide (t.cell 0x2000 = 0x123477EF ∧ t.outputs = [.diag (.unknownRegisterWrite 0xFF000001)])) = true ∧
    answers (exec (.rdDefault .long 0xFF000000) (base.setCell 0x2000 0x123477EF))
      (fun t => decide (t.outputs = [.readData 0x123477EF])) = true := by decide

/-- V-REG-8, V-REG-9. -/
theorem test_plain_read :
    answers (exec (.rdTcor1 .word 0xFFD80016) (withRegs [(.tcor 1, 0x12345678)] base))
      (fun t => decide (t.outputs = [.readData 0x1234])) = true ∧
    exec (.rdDefault .long 0x0C000000) base = .refused .outsideWindow ∧
    exec (.wrIpra .word 0xFFD00005 0) base = .refused .misalignedLane := ⟨by decide, rfl, rfl⟩

/-- V-GPIO-1, V-GPIO-2. -/
theorem test_gpio_writes :
    answers (exec (.wrPctra .long 0xFF80002C 0xD) base)
      (fun t => decide (t.gpio.dir16 = 3 ∧ t.gpio.pup16 = 0xFFFC ∧ t.outputs = [])) = true ∧
    answers (exec (.wrPdtra .word 0xFF800030 0xFFFF)
      ((withRegs [(.pctra, 0xD), (.bcr2, 1)] base).setGpio ⟨3, 0xFFFC, 0, 0xF⟩))
      (fun t => decide (t.outputs = [.gpioOut16 3 0xD])) = true := by decide

/-- V-GPIO-3, V-GPIO-4. -/
theorem test_gpio_reads :
    answers (exec (.rdPdtra .word 0xFF800030)
      { (withRegs [(.pdtra, 0xFFFF), (.bcr2, 1)] base).setGpio ⟨3, 0xFFFC, 0, 0xF⟩ with pins16 := 0xA5A4 })
      (fun t => decide (t.outputs = [.readData 0xA5A7])) = true ∧
    answers (exec (.wrPctrb .byte 0xFF800040 0x61) (withRegs [(.bcr2, 1)] base))
      (fun t => decide (t.gpio.dir4 = 9 ∧ t.gpio.pup4 = 2 ∧ t.outputs = [.gpioOut4 0 0x61])) = true ∧
    answers (exec (.rdPdtrb .byte 0xFF800044)
      { (withRegs [(.pdtrb, 0xF), (.bcr2, 1)] base).setGpio ⟨0, 0xFFFF, 9, 2⟩ with pins4 := 6 })
      (fun t => decide (t.outputs = [.readData 0xF])) = true := by decide

/-- V-RST-1, V-RST-2. -/
theorem test_reset :
    answers (exec .reset { withRequests [36, 16] (withRegs [(.icr, 0x280), (.chcr 0, 0x5431), (.tcnt 0, 3)] burstSetup) with now := 500 })
      (fun t => decide (t.rtcDeadline = some 501 ∧ requests t = [] ∧ t.intc.pending = false ∧ t.regs = regsReset defaultConfig ∧
        t.mem = burstSetup.mem ∧ t.outputs = [] ∧ t.cpu.sr = 0x700000F0 ∧ t.now = 500)) = true := by decide

/-! ## Premises: for every statement with hypotheses, states and operands that meet them, clause by clause -/

/-- The operation has a next state. -/
def runs (r : Result) : Bool := answers r fun _ => true

theorem exists_of_runs {r : Result} (h : runs r = true) : ∃ t, r = .next t := by
  cases r with
  | next t => exact ⟨t, rfl⟩
  | fault e => cases h
  | refused e => cases h

/-- `DecodeEncodeRoundTrip`, `BusAccessRefusedOrReadOnly`: the edges of the window and of the lanes. -/
theorem test_premises_wellFormed :
    wf (Instr.rdDefault .byte 0xFE000000) = true ∧ wf (Instr.wrDefault .byte 0xFFFFFFFF 0) = true ∧
    wf (Instr.rdDefault .long 0x1E000000) = true ∧ wf (Instr.rdDefault .word 0x1FFFFFFE) = true ∧
    wf (Instr.advance 0xFFFFFFFF) = true ∧ Instr.reset.wellFormed defaultConfig = true ∧
    inWindow defaultConfig 0xFDFFFFFF = false ∧ inWindow defaultConfig 0x20000000 = false ∧ inWindow defaultConfig 0x1DFFFFFF = false := by decide

/-- `EncodeDecodeCanonical`: words with bits set that no operand takes. -/
theorem test_premises_EncodeDecodeCanonical :
    decode defaultConfig (.b 0x2FFD8000CDEADBEEF) = .ok (.rdTcnt0 .long 0xFFD8000C) ∧
    decode defaultConfig (.b 0x5FFD0000C00007000) = .ok (.wrIprc .word 0xFFD0000C 0x7000) ∧
    decode defaultConfig (.p ((0x01 : Byte) ++ (0xFFFFFFC9 : Word))) = .ok (.request 9) := ⟨rfl, rfl, rfl⟩

/-- `DecodeRejectsReserved`, `RequestMarksSource`: the first source id and timer id that are refused, and the
last that are not. -/
theorem test_premises_reserved :
    52 ≤ (field (52 : Word) 0 6).toNat ∧ ¬52 ≤ (field (51 : Word) 0 6).toNat ∧ 8 < (field (9 : Word) 0 4).toNat ∧
    ¬8 < (field (8 : Word) 0 4).toNat := by decide

/-- `StepRunsDecoded`. -/
theorem test_premises_StepRunsDecoded :
    decode defaultConfig (.p 0x0100000009) = .ok (.request 9) ∧ decode defaultConfig (.p 0x0100000034) = .error (.badSource 52) ∧
    decodeTableWord 40 0x3F00000000 = some .reset ∧ State.reset.events = [] ∧
    (base.withEvents [.op (.p 0x0100000009)]).events = .op (.p 0x0100000009) :: [] ∧
    (base.withEvents [.op (.p 0x0100000034)]).events = .op (.p 0x0100000034) :: [] ∧
    (base.withEvents [.cpu cpuReset]).events = .cpu cpuReset :: [] ∧
    (base.withEvents [.pins 1 2]).events = .pins 1 2 :: [] ∧
    (base.withEvents [.hand ⟨[], recordEmpty⟩]).events = .hand ⟨[], recordEmpty⟩ :: [] ∧
    (base.withEvents [.poke 0xFFFFFFFF 1]).events = .poke 0xFFFFFFFF 1 :: [] := by
  exact ⟨rfl, rfl, rfl, rfl, rfl, rfl, rfl, rfl, rfl, rfl⟩

/-- The premise `separate` of many statements, and a table of parameters that does not meet it. -/
theorem test_separate :
    base.cfg.separate = true ∧
    ({ defaultConfig with map := { defaultMap with scramble := ⟨[], []⟩ } } : Config).separate = false := by decide

/-- 20_memory R81: `RegIndex` is a parameter; another value of it, and another `ADDR`, decode otherwise. -/
theorem test_regIndex_parameter :
    regIndex { defaultConfig with map := { defaultMap with scramble := ⟨[(0x3FFF, 0)], [(0xFFD00004, 5)]⟩ } } 0xFFD00004 = 5 ∧
    regIndex { defaultConfig with map := { defaultMap with scramble := ⟨[(0x3FFF, 0)], []⟩ } } 0xFFD00004 = 4 ∧
    decode { defaultConfig with map := { defaultMap with addr := defaultMap.addr.set 8 0xFFD00018 } }
      (.b (BitVec.ofNat 67 (busWord 0 2 0xFFD00018 0))) = .ok (.rdRsvz .long 0xFFD00018) := ⟨by decide, by decide, rfl⟩

/-- `ResetInstalls`, `ResetEstablishesInvariants`, `TestFlagStaysFresh`, `ContextFrame`, `FlagsSetOnlyAsTabled`:
the premises on the parameters. -/
theorem test_premises_reset :
    Memory.wf burstSetup.mem = true ∧ burstSetup.mem ≠ [] ∧ burstSetup.cfg.separate = true ∧
    burstSetup.cfg.reset = defaultReset ∧ defaultReset.pending = false ∧ defaultReset.test = false ∧
    (burstSetup.cfg.srMd = 30 ∧ burstSetup.cfg.srRb = 29 ∧ burstSetup.cfg.srBl = 28 ∧ burstSetup.cfg.srImask = 4) ∧
    burstSetup.cfg.srcLow = defaultSrcLow ∧ burstSetup.cfg.srcHigh = defaultSrcHigh := by decide

theorem test_fresh_base : FreshTest base := by unfold FreshTest Passing; decide

theorem test_accepts_sources :
    Accepts base 9 ∧ Accepts (withRegs [(.icr, 0x200)] (withSr 0x70000000 base)) 16 ∧ ¬Accepts base 45 ∧
    ¬Accepts State.reset 16 ∧ ¬Accepts (withSr 0x50000000 base) 9 := by
  unfold Accepts; decide

/-- `TestFlagStaysFresh`. -/
theorem test_premises_TestFlagStaysFresh :
    runs (exec .recompute base) = true ∧
    (runs (exec (.request 9) base) = true ∧ base.intc.requesting[9] = false) ∧
    (runs (exec (.unrequest 9) (withRequests [9] base)) = true ∧ (withRequests [9] base).intc.requesting[9] = true) ∧
    runs (exec (.raise 9) base) = true ∧
    (runs (exec (.wrIpra .word 0xFFD00004 7) base) = true ∧ wf (Instr.wrIpra .word 0xFFD00004 7) = true) ∧
    (runs (exec (.wrIcr .word 0xFFD00000 7) base) = true ∧ wf (Instr.wrIcr .word 0xFFD00000 7) = true) := by
  decide

/-- `RequestMarksSource`, `UnrequestClearsSource`: an idle source, a requesting one, flags fresh. -/
theorem test_premises_request_unrequest :
    base.intc.requesting[0] = false ∧ (withRequests [51] base).intc.requesting[51] = true ∧
    (base.intc.pending = true ↔ ∃ y : Source, base.intc.requesting[y] = true) := by decide

/-- `MaskComparesRank`: the lowest source of level 1, and a source of level 0 with sub-priority 0. -/
theorem test_premises_MaskComparesRank :
    1 ≤ base.intc.prio[0].level ∧ base.intc.prio[45].level = 0 ∧ base.intc.prio[45].sub = 0 := by decide

/-- `SelectFindsHighest`. -/
theorem test_premises_SelectFindsHighest :
    select (withRequests [36, 45] base) = some 45 ∧ exceeds (withRequests [36, 45] base) 45 = false := by decide

/-- `BoundaryDispatchesHighest`. -/
theorem test_premises_BoundaryDispatchesHighest :
    base.intc.test = false ∧ (∀ y : Source, base.intc.requesting[y] = false) ∧
    (withRequests [9, 15] base).intc.test = true ∧ (withRequests [9, 15] base).intc.requesting[15] = true ∧
    (∀ y : Source, (withRequests [9, 15] base).intc.requesting[y] = true → y ≠ 15 →
      Outranks (withRequests [9, 15] base) 15 y) := by
  unfold Outranks; decide

/-- `RaiseEntersOrDeclines`: declined, blocked, accepted with and without the automatic withdrawal
(`test_accepts_sources` has the acceptance). -/
theorem test_premises_RaiseEntersOrDeclines :
    bit (withSr 0x50000000 base).cpu.sr 28 = true ∧ ¬((9 : Source).val = 16 ∧ bit (base.reg .icr) 9 = true) ∧
    ((16 : Source).val ∈ [16, 44, 45, 46, 47] ∧ (withRequests [16] base).intc.requesting[16] = true) ∧
    ¬((9 : Source).val ∈ [16, 44, 45, 46, 47] ∧ base.intc.requesting[9] = true) := by decide

/-- `SetIrlTracksEdges`. -/
theorem test_premises_SetIrlTracksEdges :
    bit (base.reg .icr) 7 = false ∧ bit ((withRegs [(.icr, 0x80)] base).reg .icr) 7 = true ∧
    base.intc.irlLine[3] ≠ true ∧ base.intc.irlLine[0] = false := by decide

/-- `SetIrlnShowsLevel`: -1, 16, 0, 14 and 15, with and without a source of the line requesting. -/
theorem test_premises_SetIrlnShowsLevel :
    bit (base.reg .icr) 7 = false ∧ (0xFFFFFFFF : Word).toInt < 0 ∧ 15 < (16 : Word).toInt ∧ 0 ≤ (0 : Word).toInt ∧
    (15 : Word).toInt ≤ 15 ∧ (14 : Word).toNat < 15 ∧ (15 : Word).toNat = 15 ∧
    (∃ y : Source, 17 ≤ y.val ∧ y.val ≤ 31 ∧ (withRequests [31] base).intc.requesting[y] = true) ∧
    (∀ y : Source, 17 ≤ y.val → y.val ≤ 31 → (withRequests [16, 32] base).intc.requesting[y] = false) := by decide

/-- `SetNmiRequestsAndCancels`. -/
theorem test_premises_SetNmiRequestsAndCancels :
    base.intc.nmiLine = false ∧ base.intc.requesting[srcNmi] = false ∧
    (withRequests [16] base).intc.nmiLine = false ∧ (withRequests [16] base).intc.requesting[srcNmi] = true ∧
    ({ base with intc := { base.intc with nmiLine := true } } : State).intc.nmiLine = true := by decide

/-- `PriorityWriteUpdatesFourSources`, `ControlWriteRecomputes`. -/
theorem test_premises_priority_control :
    wf (Instr.wrIpra .byte 0xFFD00007 0xFF) = true ∧ wf (Instr.wrIprb .word 0xFFD0000A 1) = true ∧
    wf (Instr.wrIprc .long 0xFFD0000C 1) = true ∧ wf (Instr.wrIprd .word 0xFFD00010 1) = true ∧
    wf (Instr.wrIcr .byte 0xFFD00001 2) = true := by decide

/-! ### The DMA controller -/

theorem test_ready_burst : Ready (burstSetup.stored (.chcr 0) .long 0xFFA0000C 0x5431) 0 := by
  unfold Ready Enabled; decide

theorem test_setup_burst :
    dmaSetup (burstSetup.stored (.chcr 0) .long 0xFFA0000C 0x5431) 0 = .ok ⟨4, .increment, .increment, 4⟩ := rfl

theorem test_windowFree_burst : WindowFree (burstSetup.stored (.chcr 0) .long 0xFFA0000C 0x5431) 0 := by
  intro p hp
  rw [test_setup_burst] at hp
  cases hp
  unfold RunFree UnitFree
  decide

/-- A destination whose last unit is the first of the register window. -/
def windowSetup : State := withRegs [(.dar 0, 0x1DFFFFF4)] burstSetup

theorem test_not_windowFree : ¬WindowFree (windowSetup.stored (.chcr 0) .long 0xFFA0000C 0x5431) 0 := by
  intro h
  have h1 := (h ⟨4, .increment, .increment, 4⟩ rfl).2 3 (by decide)
  revert h1
  unfold UnitFree
  decide

/-- `ChannelWriteWithoutTransfer`: started already, request select 7, error latched, idle, in flight without
`DE`, increment code 3, size code 5. -/
theorem test_premises_ChannelWriteWithoutTransfer :
    wf (Instr.wrChcr0 .long 0xFFA0000C 0x5431) = true ∧
    Enabled ((burstSetup.setChan 0 (inFlight 9)).stored (.chcr 0) .long 0xFFA0000C 0x5431) 0 ∧
    ¬Ready ((burstSetup.setChan 0 (inFlight 9)).stored (.chcr 0) .long 0xFFA0000C 0x5431) 0 ∧
    Enabled (burstSetup.stored (.chcr 0) .long 0xFFA0000C 0x5731) 0 ∧
    requestSelect (burstSetup.stored (.chcr 0) .long 0xFFA0000C 0x5731) 0 ∉ [2, 3, 4, 5, 6] ∧
    ¬Enabled (burstSetup.stored (.chcr 0) .long 0xFFA0000C 0x5430) 0 ∧
    ((burstSetup.stored (.chcr 0) .long 0xFFA0000C 0x5430).chan 0).active = false ∧
    ¬Enabled ((burstSetup.setChan 0 (inFlight 9)).stored (.chcr 0) .long 0xFFA0000C 0x5430) 0 ∧
    (((burstSetup.setChan 0 (inFlight 9)).stored (.chcr 0) .long 0xFFA0000C 0x5430).chan 0).active = true ∧
    Ready (burstSetup.stored (.chcr 0) .long 0xFFA0000C 0xF651) 0 ∧
    requestSelect (burstSetup.stored (.chcr 0) .long 0xFFA0000C 0xF651) 0 ∈ [2, 3, 4, 5, 6] ∧
    field ((burstSetup.stored (.chcr 0) .long 0xFFA0000C 0xF651).reg (.chcr 0)) 12 2 = 3 ∧
    Ready (burstSetup.stored (.chcr 0) .long 0xFFA0000C 0x5251) 0 ∧
    requestSelect (burstSetup.stored (.chcr 0) .long 0xFFA0000C 0x5251) 0 ∈ [2, 3, 4, 5, 6] ∧
    field ((burstSetup.stored (.chcr 0) .long 0xFFA0000C 0x5251).reg (.chcr 0)) 12 2 ≠ 3 ∧
    field ((burstSetup.stored (.chcr 0) .long 0xFFA0000C 0x5251).reg (.chcr 0)) 14 2 ≠ 3 ∧
    5 ≤ (field ((burstSetup.stored (.chcr 0) .long 0xFFA0000C 0x5251).reg (.chcr 0)) 4 3).toNat := by
  unfold Ready Enabled; decide

/-- `ChannelWriteStartsBurst`, with `test_ready_burst`, `test_windowFree_burst` and, for the other clause,
`test_not_windowFree`; the parameters that the statement quantifies over. -/
theorem test_premises_ChannelWriteStartsBurst :
    requestSelect (burstSetup.stored (.chcr 0) .long 0xFFA0000C 0x5431) 0 ∈ [4, 5, 6] ∧
    Inc.increment = Inc.ofCode (field ((burstSetup.stored (.chcr 0) .long 0xFFA0000C 0x5431).reg (.chcr 0)) 12 2) ∧
    Inc.increment = Inc.ofCode (field ((burstSetup.stored (.chcr 0) .long 0xFFA0000C 0x5431).reg (.chcr 0)) 14 2) ∧
    4 = [8, 1, 2, 4, 32, 0, 0, 0].getD
      (field ((burstSetup.stored (.chcr 0) .long 0xFFA0000C 0x5431).reg (.chcr 0)) 4 3).toNat 0 ∧
    (field ((burstSetup.stored (.chcr 0) .long 0xFFA0000C 0x5431).reg (.dmatcr 0)) 0 24).toNat = 4 ∧
    Ready (windowSetup.stored (.chcr 0) .long 0xFFA0000C 0x5431) 0 ∧
    requestSelect (windowSetup.stored (.chcr 0) .long 0xFFA0000C 0x5431) 0 ∈ [4, 5, 6] := by
  unfold Ready Enabled; decide

/-- `ChannelWriteStartsDevice`: the request select 2, and the count 0 that stands for 0x1000000. -/
theorem test_premises_ChannelWriteStartsDevice :
    Ready ((withRegs [(.dmatcr 0, 0)] burstSetup).stored (.chcr 0) .long 0xFFA0000C 0x1231) 0 ∧
    requestSelect ((withRegs [(.dmatcr 0, 0)] burstSetup).stored (.chcr 0) .long 0xFFA0000C 0x1231) 0 ∈ [2, 3] ∧
    Inc.fixed = Inc.ofCode
      (field (((withRegs [(.dmatcr 0, 0)] burstSetup).stored (.chcr 0) .long 0xFFA0000C 0x1231).reg (.chcr 0)) 14 2) ∧
    (field (((withRegs [(.dmatcr 0, 0)] burstSetup).stored (.chcr 0) .long 0xFFA0000C 0x1231).reg (.dmatcr 0)) 0 24).toNat
      = 0 := by
  unfold Ready Enabled; decide

/-- `OperationWriteChecksAll`, its completion: a channel with a block off the window, and three whose size code
is reserved, so that they move nothing. -/
def quietSetup : State := withRegs [(.chcr 1, 0x70), (.chcr 2, 0x70), (.chcr 3, 0x70), (.chcr 0, 0x5431)] burstSetup

theorem test_windowFree_all :
    quietSetup.cfg.separate = true ∧ ∀ n : Chan, WindowFree (quietSetup.setReg .dmaor 1) n := by
  refine ⟨by decide, fun n p hp => ?_⟩
  fin_cases n
  · have h : dmaSetup (quietSetup.setReg .dmaor 1) 0 = .ok ⟨4, .increment, .increment, 4⟩ := rfl
    cases h.symm.trans hp
    unfold RunFree UnitFree
    decide
  all_goals cases hp

/-- `OperationWriteChecksAll`: a write that clears `DME`, and one that finds every channel idle and disabled. -/
theorem test_premises_OperationWriteChecksAll :
    wf (Instr.wrDmaor .long 0xFFA00040 0) = true ∧ bit (dmaorKept 1 0) 0 = false ∧
    (∀ n : Chan, ¬Enabled (base.setReg .dmaor 1) n ∧ ((base.setReg .dmaor 1).chan n).active = false) ∧
    (∀ n : Chan, Enabled (withRegs [(.chcr 0, 0x5731), (.chcr 1, 0x5031), (.chcr 2, 0x5131), (.chcr 3, 0x5433), (.dmaor, 1)] base) n) := by
  unfold Enabled; decide

/-- `CopyLoopHasClosedForm`, `WindowTestIsExact`: each size, a run of no unit, and runs that span the whole
address space. -/
theorem test_premises_runs :
    8 ∈ [1, 2, 4, 8] ∧ (0x0C000020 : Word).toNat % 32 = 0 ∧ (32 ∈ [1, 2, 4, 8, 32]) ∧ 1 ≤ 1 ∧
    0 * 32 ≤ 0x100000000 ∧ 0x8000000 * 32 ≤ 0x100000000 ∧ 0x100000000 * 1 ≤ 0x100000000 := by decide

/-- `BurstRoundTripCopies`: S-3, and ranges that end where the mirror of the window begins. -/
theorem test_premises_BurstRoundTripCopies :
    wf (Instr.wrChcr0 .long 0xFFA0000C 0x5431) = true ∧
    field (0x5431 : Word) 12 2 = 1 ∧ field (0x5431 : Word) 14 2 = 1 ∧ field (0x5431 : Word) 4 3 = 3 ∧
    field (0x5431 : Word) 8 4 = 4 ∧ bit 0x5431 0 = true ∧ bit 0x5431 1 = false ∧
    bit (burstSetup.reg .dmaor) 0 = true ∧ bit (burstSetup.reg .dmaor) 1 = false ∧
    bit (burstSetup.reg .dmaor) 2 = false ∧ (burstSetup.chan 0).active = false ∧
    burstSetup.cfg.separate = true ∧ burstSetup.cfg.dmaAddrMask = 0x1FFFFFFF ∧
    (burstSetup.reg (.sar 0)).toNat = 0x0C000000 ∧ (burstSetup.reg (.dar 0)).toNat = 0x0C001000 ∧
    (field (burstSetup.reg (.dmatcr 0)) 0 24).toNat = 4 ∧ 0x0C000000 % 4 = 0 ∧ 0x0C000000 + 4 * 4 ≤ 0x0C001000 ∧
    (∀ j < 4, inWindow defaultConfig (BitVec.ofNat 32 (0x0C000000 + 4 * j)) = false ∧
      inWindow defaultConfig (BitVec.ofNat 32 (0x0C001000 + 4 * j)) = false) ∧
    (burstSetup.cfg.burstDelayOther.lookup 4).getD (burstSetup.cfg.burstDelayMul * 4 + burstSetup.cfg.burstDelayAdd) = 9 ∧
    (∀ j < 4, inWindow defaultConfig (BitVec.ofNat 32 (0x1DFFFFE0 + 4 * j)) = false ∧
      inWindow defaultConfig (BitVec.ofNat 32 (0x1DFFFFF0 + 4 * j)) = false) ∧
    0x1DFFFFE0 + 4 * 4 ≤ 0x1DFFFFF0 ∧ 0x1DFFFFF0 + 4 * 4 ≤ 0x20000000 := by decide

/-- A device transfer whose second unit lies in the register window. -/
def pumpIntoWindow : State :=
  (base.setChan 0 ⟨true, .device, none, 0x1DFFFFFC, 0x1DFFFFFC, 2, 4, .increment, .increment, 2⟩).setPort
    ⟨[0, 0, 0], recordEmpty⟩

/-- `PumpFillsBuffer`, `PumpDrainsBuffer`: an idle channel, a free run, a run into the window, each direction. -/
theorem test_premises_pump :
    (base.chan 3).active = false ∧ (pumping.chan 0).active = true ∧ (pumping.chan 0).kind = .device ∧
    (pumping.chan 0).devMode = 2 ∧
    (∀ k < 2, UnitFree defaultConfig (dmaAlign 0x1FFFFFFF (unitAddr (pumping.chan 0).devSrc 4 .increment k) 4) 4) ∧
    (∃ k < 2, ¬UnitFree defaultConfig (dmaAlign 0x1FFFFFFF (unitAddr (pumpIntoWindow.chan 0).devSrc 4 .increment k) 4) 4) ∧
    (∃ k < 2, ¬UnitFree defaultConfig (dmaAlign 0x1FFFFFFF (unitAddr (pumpIntoWindow.chan 0).devDst 4 .increment k) 4) 4) ∧
    min (pumpIntoWindow.chan 0).devCount pumpIntoWindow.port.buffer.length = 2 ∧ (3 : BitVec 4) ≠ 2 ∧
    (pumping.chan 0).devSize ∈ [1, 2, 4, 8, 32] := by unfold UnitFree; decide

/-- A window inside a 32-byte unit of memory, and a channel at that unit, on either side. -/
def oddWindow (lo hi : Word) (s : State) : State :=
  { s with cfg := { defaultConfig with map := { defaultMap with window := [(lo, hi), (0xFE000000, 0xFFFFFFFF)] } } }

def blockPump (mode : BitVec 4) : State :=
  (base.setChan 0 ⟨true, .device, none, 0x0C000000, 0x0C000000, 1, 32, .increment, .increment, mode⟩).setPort
    ⟨[0], recordEmpty⟩

/-- Refused for the register window. -/
def intoWindow (r : Result) : Bool :=
  match r with
  | .refused .dmaIntoWindow => true
  | _ => false

/-- 20_memory R82, R84: each of the four accesses of a 32-byte unit counts, by the address of its first byte. -/
theorem test_block_meets_window :
    (∀ j ∈ [0, 8, 16, 24], ∀ mode ∈ [2, 3], intoWindow (exec (.dmaData 0)
      (oddWindow (0x0C000000 + BitVec.ofNat 32 j) (0x0C000000 + BitVec.ofNat 32 j) (blockPump mode))) = true) ∧
    (∀ mode ∈ [2, 3], runs (exec (.dmaData 0) (oddWindow 0x0C000019 0x0C00001F (blockPump mode))) = true) ∧
    intoWindow (exec (.wrChcr0 .long 0xFFA0000C 0x5441) (oddWindow 0x0C000018 0x0C00001F burstSetup)) = true ∧
    intoWindow (exec (.wrChcr0 .long 0xFFA0000C 0x5441) (oddWindow 0x0C001068 0x0C001068 burstSetup)) = true ∧
    runMeetsWindow (oddWindow 0x0C000018 0x0C00001F base).cfg 0x0C000040 32 .decrement 2 = true ∧
    runMeetsWindow (oddWindow 0x0C000018 0x0C00001F base).cfg 0x0C000040 32 .decrement 1 = false := by decide

/-- `DirectTransferCopies`: the length that matches, one that does not, an illegal increment, a reserved size. -/
theorem test_premises_DirectTransferCopies :
    ((directSetup (directRecord 4)).chan 0).active = false ∧ (directRecord 4).raw = false ∧
    ((directSetup (directRecord 4)).reg (.dmatcr 0)).toNat * 4 = (directRecord 4).length * (directRecord 4).size ∧
    ((directSetup (directRecord 3)).reg (.dmatcr 0)).toNat * 4 ≠ (directRecord 3).length * (directRecord 3).size ∧
    [8, 1, 2, 4, 32, 0, 0, 0].getD (field ((directSetup (directRecord 4)).reg (.chcr 0)) 4 3).toNat 0 = 4 ∧
    field (0xF430 : Word) 12 2 = 3 ∧ [8, 1, 2, 4, 32, 0, 0, 0].getD (field (0x5470 : Word) 4 3).toNat 0 = 0 ∧
    field (0x5470 : Word) 12 2 ≠ 3 ∧ field (0x5470 : Word) 14 2 ≠ 3 ∧
    RunFree defaultConfig 0x0C000000 4 .increment 4 ∧ RunFree defaultConfig 0x0C003000 4 .increment 4 ∧ ¬RunFree defaultConfig 0x1DFFFFFC 4 .increment 2 := by
  unfold RunFree UnitFree; decide

/-- A raw record that reads 32-byte units into the host buffer. -/
def rawToHost : DdtRecord :=
  { recordEmpty with raw := true, size := 32, direction := .toHost, length := 1, source := 0x0C000100 }

/-- `RawTransferMoves`: both sizes, both directions, misaligned, into the window, no length. -/
theorem test_premises_RawTransferMoves :
    (base.chan 0).active = false ∧
    (rawRecord.raw = true ∧ rawRecord.direction = .toMemory ∧ rawRecord.size = 4 ∧
      rawRecord.destination.toNat % 4 = 0) ∧
    (rawToHost.raw = true ∧ rawToHost.direction = .toHost ∧ rawToHost.size = 32 ∧
      rawToHost.source.toNat % 8 = 0 ∧ runs (exec (.dmaDdt 0) (base.setPort ⟨[], rawToHost⟩)) = true) ∧
    (0x0C000104 : Word).toNat % 8 ≠ 0 := by decide

theorem test_premises_RawTransferMoves_window :
    RunFree defaultConfig rawRecord.destination 4 .increment 2 ∧
    RunFree defaultConfig rawToHost.source 8 .increment (4 * rawToHost.length) ∧
    RunFree defaultConfig 0x0C000101 4 .increment 0 ∧ ¬RunFree defaultConfig 0x1DFFFFF8 8 .increment 2 := by
  unfold RunFree UnitFree; decide

/-- `DmaCompletionReports`: due exactly now, with and without the interrupt enable. -/
theorem test_premises_DmaCompletionReports :
    ((base.setChan 3 (inFlight 0)).chan 3).deadline = some 0 ∧ 0 ≤ (base.setChan 3 (inFlight 0)).now ∧
    bit (0x5435 : Word) 2 = true ∧ bit (0x5431 : Word) 2 = false := by decide

/-! ### Time and the timers -/

/-- `TimeAdvancesToDeadlines`: exactly to the deadline, one beyond it, no time, a timer that is not due. -/
theorem test_premises_TimeAdvancesToDeadlines :
    1 ≤ (1 : Word).toNat ∧
    (∀ (t : TimerId) (d : Time), deadlineOf t State.reset = some d → State.reset.now + (1 : Word).toNat ≤ d) ∧
    (∃ (t : TimerId) (d : Time), deadlineOf t State.reset = some d ∧ d < State.reset.now + (2 : Word).toNat) ∧
    (0 : Word).toNat = 0 ∧ (∀ d : Time, deadlineOf .rtc State.reset = some d → State.reset.now < d) := by
  refine ⟨by decide, ?_, ⟨.rtc, 1, rfl, by decide⟩, rfl, ?_⟩
  · intro t d h
    have h1 : ∀ n : Chan, (State.reset.chan n).deadline = none := by decide
    have h2 : ∀ n : TmuChan, (State.reset.timer n).deadline = none := by decide
    cases t with
    | dma n => exact absurd ((h1 n).symm.trans h) (by simp)
    | tmu n => exact absurd ((h2 n).symm.trans h) (by simp)
    | ref => cases h
    | rtc => cases h; decide
  · intro d h; cases h; decide

/-- `TmuExpiryReloads`, `RefreshExpiryCounts`, `RtcTickCarries`: due exactly now; a count that reaches its
threshold, one that does not, and a tick that carries. -/
theorem test_premises_expiries :
    ((base.setTimer 2 ⟨some 0, 0⟩).timer 2).deadline = some 0 ∧ bit (0x20 : Word) 5 = true ∧ bit (0 : Word) 5 = false ∧
    (base.setRefresh ⟨some 0, 0, 0⟩).refresh.deadline = some 0 ∧
    (bit (0x4 : Word) 2 && !bit (0x4 : Word) 1) = true ∧ ((511 : Word).toNat + 1) % 1024 = 512 ∧
    ((1023 : Word).toNat + 1) % 1024 = 0 ∧
    ({ State.reset with now := 1 } : State).rtcDeadline = some 1 ∧
    ((withRegs [(.r64cnt, 63)] State.reset).reg .r64cnt + 1) &&& 0x7F = 64 := by decide

/-- `CalendarRefinesDecimalClock`: the last second of the last year, a leap day, the default month lengths. -/
theorem test_premises_CalendarRefinesDecimalClock :
    defaultConfig.monthLen.length = 12 ∧ (∀ l ∈ defaultConfig.monthLen, 1 ≤ l ∧ l ≤ 31) ∧
    (Calendar.mk 0x59 0x59 0x23 6 0x31 0x12 0x9999).Valid defaultConfig ∧
    (Calendar.mk 0 0 0 0 0x29 2 0x2000).Valid defaultConfig ∧
    ¬(Calendar.mk 0 0 0 0 0x29 2 0x1900).Valid defaultConfig := by
  refine ⟨rfl, by decide, ⟨List.all_eq_true.1 rfl, by decide⟩, ⟨List.all_eq_true.1 rfl, by decide⟩, fun h => ?_⟩
  exact absurd h.2.2.2.2.2.2.2.2.2 (by decide)

/-- The writes of the timers: well formed, a start bit that rises, one that falls, a started channel, the
acknowledge, an active refresh timer and an idle one. -/
theorem test_premises_timer_writes :
    wf (Instr.wrTstr .byte 0xFFD80004 1) = true ∧ wf (Instr.wrTcnt2 .long 0xFFD80024 1) = true ∧
    wf (Instr.wrTcr1 .word 0xFFD8001C 0x20) = true ∧ wf (Instr.wrRtcsr .word 0xFF80001C 8) = true ∧
    wf (Instr.wrRtcnt .word 0xFF800020 1) = true ∧ wf (Instr.wrRtcor .word 0xFF800024 1) = true ∧
    wf (Instr.wrRfcr .word 0xFF800028 1) = true ∧ wf (Instr.wrRcr2 .byte 0xFFC8003C 6) = true ∧
    (bit (base.reg .tstr) 0 = false ∧ bit ((base.stored .tstr .byte 0xFFD80004 1).reg .tstr) 0 = true) ∧
    (bit ((withRegs [(.tstr, 4)] base).reg .tstr) 2 = true ∧
      bit (((withRegs [(.tstr, 4)] base).stored .tstr .byte 0xFFD80004 0).reg .tstr) 2 = false) ∧
    (bit (0x20 : Word) 8 = false ∧ bit (0x120 : Word) 8 = true ∧ bit (0x120 : Word) 5 = true) ∧
    (field (refreshing.reg .rtcsr) 3 3 ≠ 0 ∧ ¬field (base.reg .rtcsr) 3 3 ≠ 0) := by decide

/-! ### The register file -/

/-- `LanesFollowWidthAndOrder`: the first and the last lane of each width, under both byte orders. -/
theorem test_premises_LanesFollowWidthAndOrder :
    laneOk .byte 3 = true ∧ laneOk .byte 0 = true ∧ laneOk .word 2 = true ∧ laneOk .word 1 = false ∧
    laneOk .long 0 = true ∧ laneOk .long 2 = false ∧ laneShift .little .byte 3 = 24 ∧ laneShift .big .byte 3 = 0 ∧
    laneShift .big .byte 0 = 24 ∧ laneShift .big .word 2 = 0 ∧ laneShift .big .long 0 = 0 := by decide

/-- `PlainAndHardWiredRegisters`, `LiveReadsAnswer`, `GpioWritesDrivePins`: one operation of each clause. -/
theorem test_premises_register_file :
    wf (Instr.wrIntevt .long 0xFF000028 0x123) = true ∧ wf (Instr.rdTcor1 .word 0xFFD80016) = true ∧
    wf (Instr.wrDefault .byte 0xFF000001 0x77) = true ∧ wf (Instr.rdDefault .long 0xFF000000) = true ∧
    wf (Instr.wrPvr .long 0xFF000030 1) = true ∧ wf (Instr.rdRsvz .long 0xFFD00014) = true ∧
    wf (Instr.rdPvr .byte 0xFF000033) = true ∧ wf (Instr.rdTcnt0 .long 0xFFD8000C) = true ∧
    wf (Instr.rdRtcnt .byte 0xFF800020) = true ∧ wf (Instr.rdPdtra .word 0xFF800030) = true ∧
    wf (Instr.rdPdtrb .byte 0xFF800044) = true ∧ wf (Instr.wrPctra .long 0xFF80002C 13) = true ∧
    wf (Instr.wrPctrb .byte 0xFF800040 0x61) = true ∧ wf (Instr.wrPdtra .word 0xFF800030 1) = true ∧
    wf (Instr.wrPdtrb .byte 0xFF800044 15) = true := by decide

/-! ### The whole machine -/

/-- `OperationsComplete`, `MemoryFrameOfOthers`, `MemoryFrameOfBursts`, `MemoryFrameOfHostTransfers`: an operation
of each shape runs; `test_windowFree_burst` is the premise on the window. A byte next to the burst's destination
is none that it stores to. -/
theorem test_premises_memory_frames :
    runs (exec (.wrChcr0 .long 0xFFA0000C 0x5431) burstSetup) = true ∧
    (Instr.wrChcr0 .long 0xFFA0000C 0x5431).writesReg = some (.chcr 0) ∧
    (Instr.wrChcr0 .long 0xFFA0000C 0x5431).checks = [0] ∧ (Instr.wrDmaor .long 0xFFA00040 1).checks = [0, 1, 2, 3] ∧
    runs (exec (.wrTcr0 .word 0xFFD80010 1) burstSetup) = true ∧ (Instr.wrTcr0 .word 0xFFD80010 1).checks = [] ∧
    runs (exec (.dmaData 0) (pumping.setPort ⟨[0, 0, 9], recordEmpty⟩)) = true ∧
    runs (exec (.dmaDdt 0) (directSetup (directRecord 4))) = true := by decide

theorem test_premises_burst_elsewhere :
    ¬BurstStores (burstSetup.stored (.chcr 0) .long 0xFFA0000C 0x5431) 0 0x0C001010 ∧
    BurstStores (burstSetup.stored (.chcr 0) .long 0xFFA0000C 0x5431) 0 0x0C00100F := by
  refine ⟨?_, ⟨4, .increment, .increment, 4⟩, rfl, 3, by decide, by unfold inSpan; decide⟩
  rintro ⟨p, hp, k, hk, hx⟩
  rw [test_setup_burst] at hp
  cases hp
  revert hx
  unfold inSpan
  revert k
  decide

/-- `RegisterFrame`, `ContextFrame`, `UnitFrame`, `OutputsAreNeverRead`: operations of different units run, a
dispatch among them, and one is refused. -/
theorem test_premises_frames :
    runs (exec (.boundary false) (withRequests [44] (withDmte0 7 base))) = true ∧
    runs (exec (.setNmi true) base) = true ∧ runs (exec (.wrRcr2 .byte 0xFFC8003C 0x0D) base) = true ∧
    runs (exec (.fire .rtc) { State.reset with now := 1 }) = true ∧ runs (exec (.advance 1) State.reset) = true ∧
    runs (exec (.fire .rtc) State.reset) = false ∧ Instr.boundary false ≠ .reset := by decide

/-- `FlagsSetOnlyAsTabled`: each flag is clear before and set after the operation that the table names. -/
theorem test_premises_FlagsSetOnlyAsTabled :
    (base.intc.pending = false ∧ (∀ y : Source, base.intc.requesting[y] = false) ∧
      answers (exec (.request 9) base) (fun t => t.intc.pending) = true) ∧
    (base.intc.test = false ∧ answers (exec (.request 9) base) (fun t => t.intc.test) = true) ∧
    (bit (base.reg .dmaor) 1 = false ∧ answers (exec (.setNmi true) base) (fun t => bit (t.reg .dmaor) 1) = true) ∧
    (bit (base.reg (.chcr 3)) 1 = false ∧
      answers (exec (.fire (.dma 3)) (base.setChan 3 (inFlight 0))) (fun t => bit (t.reg (.chcr 3)) 1) = true) ∧
    (bit ((withRegs [(.mcr, 4), (.rfcr, 1023)] base).reg .rtcsr) 7 = false ∧
      answers (exec (.fire .ref) ((withRegs [(.mcr, 4), (.rfcr, 1023)] base).setRefresh ⟨some 0, 0, 0⟩))
        (fun t => bit (t.reg .rtcsr) 7 && bit (t.reg .rtcsr) 2) = true) ∧
    answers (exec (.fire .rtc) (withRegs [(.r64cnt, 63)] { State.reset with now := 1 }))
      (fun t => bit (t.reg .rcr1) 7) = true ∧
    answers (exec (.fire (.tmu 2)) (base.setTimer 2 ⟨some 0, 0⟩)) (fun t => bit (t.reg (.tcr 2)) 8) = true ∧
    bit (base.reg .dmaor) 2 = false := by decide

/-- A block at work: a burst due now, a started TMU channel, an active refresh timer, a running clock, pins
configured, a source requesting, memory written, and the burst's completion issued. -/
def busy : State :=
  (withRequests [9] (withBytes 0x0C000000 (counting 4)
    (((withRegs [(.ipr 0, 0x3000), (.tcnt 1, 5), (.tstr, 2), (.rtcor, 100), (.rtcsr, 8), (.pctra, 0xD),
        (.chcr 0, 0x5435), (.dmaor, 1)]
      { State.reset with now := 7, rtcDeadline := some 9,
                         intc := { State.reset.intc with prio := State.reset.intc.prio.set 36 ⟨0, 3⟩ } }).setChan 0
          (inFlight 7)).setTimer 1 ⟨some 20, 0⟩ |>.setRefresh ⟨some 400, 0, 0⟩ |>.setGpio ⟨3, 0xFFFC, 0, 0xF⟩))).withEvents
    [.op (.p 0x3100000000)]

/-- `StepKeepsInvariant`, `TimeCanAlwaysPass`: the invariant holds of a block at work. -/
theorem test_premises_invariant : Inv busy := by
  constructor
  case cfg => exact coherent_default
  case mem => decide
  case file => decide
  case regs => exact ⟨by decide, by decide, by decide⟩
  case range =>
    intro i hi
    have h : ∀ e ∈ busy.regs, e.1 < 0x4000 := by decide
    exact sparseGet_of_keys_lt h hi
  case intc => exact ⟨by decide, by decide⟩
  case dma => unfold ChannelInv; decide
  case tmu => unfold TmuInv; decide
  case refresh => unfold RefreshInv; decide
  case rtc => decide
  case gpio => unfold GpioAgrees; decide
  case time => decide

theorem test_busy_steps : runs (step busy) = true ∧ busy.cfg.positive ∧ runs (exec (.fire (.dma 0)) busy) = true := by
  decide

end Sys2Proof.Tests
end

section
/-! PROOF of `OperationsComplete` (O52). An operation is held back by its bus access, by time, or by a DMA access in
the register window. The test that a burst makes of its two runs is shown to fail where `WindowFree` holds; so each
start check completes, the four checks of `DMAOR` one after the other, every write handler, every bus access. -/
namespace Sys2Proof.Machine
open Sys2Proof

/-! ## The window test of a run -/

/-- The accesses at one offset within their units are a run of their own. -/
theorem unitAddr_offset (base : Word) (z : Nat) (inc : Inc) (k : Nat) (j : Word) :
    unitAddr (base + j) z inc k = unitAddr base z inc k + j := by
  cases inc with
  | fixed => rfl
  | increment => exact add_right_comm ..
  | decrement => exact (add_sub_right_comm ..)
  | illegal => rfl

/-- The address that the span test finds is one of the run, in the register window. -/
theorem exists_inWindow_of_span {cfg : Config} {lo z cnt : Nat} (hz : 1 ≤ z)
    (h : spanMeetsWindow cfg lo z cnt = true) :
    ∃ k < cnt, inWindow cfg (BitVec.ofNat 32 (lo + k * z)) = true := by
  simp only [spanMeetsWindow, List.any_eq_true, Bool.and_eq_true, decide_eq_true_eq] at h
  obtain ⟨w, hw, turn, hturn, hk, hlast⟩ := h
  generalize hd : (w.1.toNat + turn - lo + (z - 1)) / z = k at hk hlast
  have hfirst : w.1.toNat + turn ≤ lo + k * z := by
    have hmod := Nat.mod_lt (w.1.toNat + turn - lo + (z - 1)) hz
    have hdiv := Nat.div_add_mod' (w.1.toNat + turn - lo + (z - 1)) z
    rw [hd] at hdiv
    omega
  have hlt := w.2.isLt
  have haddr : (BitVec.ofNat 32 (lo + k * z)).toNat = lo + k * z - turn := by
    rw [BitVec.toNat_ofNat]
    simp only [List.mem_cons, List.not_mem_nil, or_false] at hturn
    omega
  refine ⟨k, hk, ?_⟩
  simp only [inWindow, List.any_eq_true, Bool.and_eq_true, decide_eq_true_eq, haddr]
  exact ⟨w, hw, by omega⟩

/-- The address that the test of a run of accesses finds is one of the run: from below, a falling run is walked
backwards. -/
theorem exists_inWindow_of_stride {cfg : Config} {base : Word} {z cnt : Nat} {inc : Inc} (hz : 1 ≤ z)
    (hspan : cnt * z ≤ 0x100000000) (h : strideMeetsWindow cfg base z inc cnt = true) :
    ∃ k < cnt, inWindow cfg (unitAddr base z inc k) = true := by
  cases inc with
  | fixed => exact ⟨0, by simpa [strideMeetsWindow, unitAddr] using h⟩
  | illegal => exact ⟨0, by simpa [strideMeetsWindow, unitAddr] using h⟩
  | increment =>
    obtain ⟨k, hk, hin⟩ := exists_inWindow_of_span hz h
    rw [BitVec.ofNat_add, BitVec.ofNat_toNat, BitVec.setWidth_eq] at hin
    exact ⟨k, hk, hin⟩
  | decrement =>
    obtain ⟨k, hk, hin⟩ := exists_inWindow_of_span hz h
    refine ⟨cnt - 1 - k, by omega, ?_⟩
    have hsum : (cnt - 1 - k + 1) * z + k * z = cnt * z := by
      rw [← Nat.add_mul]; congr 1; omega
    have haddr : BitVec.ofNat 32 (base.toNat + 0x100000000 - cnt * z + k * z) =
        base - BitVec.ofNat 32 ((cnt - 1 - k + 1) * z) := by
      generalize (cnt - 1 - k + 1) * z = m at hsum
      have hbase := base.isLt
      apply BitVec.eq_of_toNat_eq
      rw [BitVec.toNat_sub, BitVec.toNat_ofNat, BitVec.toNat_ofNat]
      omega
    rwa [haddr] at hin

/-- The test of a run that keeps off the register window fails. -/
theorem runMeetsWindow_of_runFree {cfg : Config} {base : Word} {z cnt : Nat} {inc : Inc} (hz : 1 ≤ z)
    (hspan : cnt * z ≤ 0x100000000) (h : RunFree cfg base z inc cnt) :
    runMeetsWindow cfg base z inc cnt = false := by
  rw [← Bool.not_eq_true]
  intro hmeets
  obtain ⟨j, hj, hstride⟩ := List.any_eq_true.1 hmeets
  obtain ⟨k, hk, hin⟩ := exists_inWindow_of_stride hz hspan hstride
  rw [unitAddr_offset] at hin
  exact unitMeetsWindow_eq_true.1 (List.any_eq_true.2 ⟨j, hj, hin⟩) (h k hk)

/-! ## The start checks complete where their bursts keep off the window -/

theorem dmaSetup_congr {s t : State} {n : Chan} (hc : t.reg (.chcr n) = s.reg (.chcr n))
    (hm : t.reg (.dmatcr n) = s.reg (.dmatcr n)) : dmaSetup t n = dmaSetup s n := by
  unfold dmaSetup
  rw [hc, hm]

/-- Whether a burst keeps off the window is read from the parameters and the channel's own four registers. -/
theorem windowFree_congr {s t : State} {n : Chan} (hg : t.cfg = s.cfg)
    (hr : ∀ r ∈ [Reg.sar n, .dar n, .dmatcr n, .chcr n], t.reg r = s.reg r) :
    WindowFree t n ↔ WindowFree s n := by
  simp only [List.forall_mem_cons] at hr
  obtain ⟨hsar, hdar, hdmatcr, hchcr, -⟩ := hr
  unfold WindowFree
  rw [dmaSetup_congr hchcr hdmatcr, hg, hsar, hdar]

/-- A burst that keeps off the window copies its block. -/
theorem copyBlock_of_windowFree {s : State} {n : Chan} {p : DmaSetup} (h : WindowFree s n)
    (hp : dmaSetup s n = .ok p) :
    ∃ r, copyBlock s.cfg s.mem (s.reg (.sar n)) (s.reg (.dar n)) p.count p.size p.incs p.incd = some r := by
  obtain ⟨-, -, -, hsize, -, hcount⟩ := dmaSetup_ok hp
  have hbounds : 1 ≤ p.size ∧ p.size ≤ 32 := by
    simp only [List.mem_cons, List.not_mem_nil, or_false] at hsize
    omega
  have hspan : p.count * p.size ≤ 0x100000000 :=
    (Nat.mul_le_mul hcount hbounds.2).trans (by decide)
  obtain ⟨hsrc, hdst⟩ := h p hp
  simp [copyBlock, runMeetsWindow_of_runFree hbounds.1 hspan hsrc,
    runMeetsWindow_of_runFree hbounds.1 hspan hdst]

theorem transfer_completes {s : State} {n : Chan} (h : WindowFree s n) (mode : TransferMode) :
    ∃ t, transfer n mode s = .next t := by
  cases hp : dmaSetup s n with
  | error d => exact ⟨_, transfer_of_error hp mode⟩
  | ok p =>
    obtain ⟨r, hr⟩ := copyBlock_of_windowFree h hp
    simp [transfer, transferFrom, hp, hr]

theorem checkChannel_completes {s : State} {n : Chan} (h : WindowFree s n) :
    ∃ t, checkChannel n s = .next t := by
  rcases check_cases s n with ⟨he, ha⟩ | ⟨he, ha⟩ | ⟨he, hheld⟩ | ⟨hready, hsel⟩ | ⟨hready, hsel⟩
  · exact ⟨_, check_disabled_idle he ha⟩
  · exact ⟨_, check_disabled_active he ha⟩
  · exact ⟨_, check_held he hheld⟩
  · rw [check_burst hready hsel]
    exact transfer_completes h .burst
  · exact ⟨_, check_device hready hsel⟩

/-- What the start check of channel `n` may write. -/
def checkEffect (cfg : Config) (n : Chan) : Effect :=
  { cells := [cfg.index (.sar n), cfg.index (.dar n)], chans := [n], mem := true }

theorem within_check {s t : State} {n : Chan} (h : checkChannel n s = .next t) :
    Within (checkEffect s.cfg n) s t :=
  within_checkChannel (within_self _ s) (List.mem_singleton_self n) rfl (by simp [checkEffect]) h

/-- The start check of one channel leaves the registers of the others. -/
theorem windowFree_checkChannel {s t : State} {m n : Chan} (hs : s.cfg.separate = true) (hne : n ≠ m)
    (hx : checkChannel m s = .next t) (h : WindowFree s n) : WindowFree t n := by
  have hw := within_check hx
  refine (windowFree_congr hw.cfg fun r hr => within_reg hw ?_).2 h
  simp only [List.mem_cons, List.not_mem_nil, or_false] at hr
  rcases hr with rfl | rfl | rfl | rfl <;> simp [checkEffect, index_inj hs, hne]

/-- The start checks of distinct channels, one after the other (41_dmac R223). -/
def checkEach (ns : List Chan) (s : State) : Result :=
  match ns with
  | [] => .next s
  | n :: ns => andThen (checkChannel n s) (checkEach ns)

theorem checkEach_completes {ns : List Chan} (hns : ns.Nodup) {s : State} (hs : s.cfg.separate = true)
    (h : ∀ n ∈ ns, WindowFree s n) : ∃ t, checkEach ns s = .next t := by
  induction ns generalizing s with
  | nil => exact ⟨s, rfl⟩
  | cons m ns ih =>
    obtain ⟨hm, hns⟩ := List.nodup_cons.1 hns
    obtain ⟨hfirst, hrest⟩ := List.forall_mem_cons.1 h
    obtain ⟨u, hu⟩ := checkChannel_completes hfirst
    rw [checkEach, hu, andThen_next]
    refine ih hns (by rwa [(within_check hu).cfg]) fun n hn => ?_
    exact windowFree_checkChannel hs (ne_of_mem_of_not_mem hn hm) hu (hrest n hn)

theorem checkEach_singleton (n : Chan) (s : State) : checkEach [n] s = checkChannel n s := by
  rw [checkEach]
  cases checkChannel n s <;> rfl

theorem checkAll_eq_checkEach (s : State) : checkAll s = checkEach [0, 1, 2, 3] s := by
  simp only [checkAll, ← checkEach_singleton 3]
  rfl

/-! ## Every operation -/

/-- The handler of a register's write completes where the bursts that it may start keep off the window. -/
theorem writeHandler_completes {r : Reg} {old new : State} (hs : new.cfg.separate = true)
    (h : ∀ n ∈ r.checks, WindowFree new n) : ∃ t, writeHandler r old new = .next t := by
  cases r with
  | sar n | dar n | dmatcr n | chcr n => exact checkChannel_completes (h n (List.mem_singleton_self n))
  | dmaor =>
    rw [writeHandler, checkAll_eq_checkEach]
    refine checkEach_completes (by decide) hs fun n hn => ?_
    refine (windowFree_congr (setReg_cfg ..) fun r hr => ?_).2 (h n hn)
    rw [setReg_reg hs, if_neg]
    rintro rfl
    simp at hr
  | _ => exact ⟨_, rfl⟩

/-- A bus operation that its access does not refuse completes where the bursts that it may start keep off the
window. -/
theorem busMeaning_completes {b : BusAccess} {s : State} (hok : busRefusal s.cfg b.width b.addr = none)
    (hs : s.cfg.separate = true)
    (h : b.write = true → ∀ r, b.target = some r →
      ∀ n ∈ r.checks, WindowFree (s.stored r b.width b.addr b.data) n) :
    ∃ t, busMeaning b s = .next t := by
  unfold busMeaning
  split
  · exact ⟨_, busRead_of_none hok _⟩
  · exact ⟨_, busRead_of_none hok _⟩
  · exact ⟨_, busWrite_of_none hok ..⟩
  · exact ⟨_, busWriteIgnored_of_none hok⟩
  · exact ⟨_, busWriteIgnored_of_none hok⟩
  · exact ⟨_, busWriteIgnored_of_none hok⟩
  · rename_i r _ _ _ hw ht
    rw [busWrite_of_none hok, storeMasked_index]
    exact writeHandler_completes hs (h hw r ht)

theorem setIrl_completes (k : Fin 4) (v : Bool) (s : State) : ∃ t, exec (.setIrl k v) s = .next t := by
  change ∃ t, execSetIrl k v s = .next t
  unfold execSetIrl
  split
  · exact ⟨_, rfl⟩
  · split <;> exact ⟨_, rfl⟩

theorem setIrln_completes (v : Word) (s : State) : ∃ t, exec (.setIrln v) s = .next t := by
  change ∃ t, execSetIrln v s = .next t
  unfold execSetIrln
  split
  · exact ⟨_, rfl⟩
  · split <;> exact ⟨_, rfl⟩

theorem setNmi_completes (v : Bool) (s : State) : ∃ t, exec (.setNmi v) s = .next t := by
  change ∃ t, execSetNmi v s = .next t
  unfold execSetNmi
  split <;> exact ⟨_, rfl⟩

/-- A port operation other than the four that time or the register window may hold back completes. -/
theorem portOp_completes {i : Instr} (hb : i.busAccess = none) (hadv : ∀ dt, i ≠ .advance dt)
    (hfire : ∀ t, i ≠ .fire t) (hdata : ∀ n, i ≠ .dmaData n) (hddt : ∀ n, i ≠ .dmaDdt n) (s : State) :
    ∃ t, exec i s = .next t := by
  cases i with
  | request _ | unrequest _ | recompute | boundary _ | raise _ | reset => exact ⟨_, rfl⟩
  | setIrl k v => exact setIrl_completes k v s
  | setIrln v => exact setIrln_completes v s
  | setNmi v => exact setNmi_completes v s
  | dmaData n => exact absurd rfl (hdata n)
  | dmaDdt n => exact absurd rfl (hddt n)
  | advance dt => exact absurd rfl (hadv dt)
  | fire t => exact absurd rfl (hfire t)
  | _ => cases hb

/-- The register that a bus write names. -/
theorem writesReg_of_busAccess {i : Instr} {b : BusAccess} (h : i.busAccess = some b) (hw : b.write = true) :
    i.writesReg = b.target := by
  simp [Instr.writesReg, h, hw]

/-- The channels that an operation checks are those of the register it writes. -/
theorem checks_of_writesReg {i : Instr} {r : Reg} (h : i.writesReg = some r) : i.checks = r.checks := by
  simp [Instr.checks, h]

/-- Settles O52: a port operation by its constructor, a bus operation by its access. -/
theorem operationsComplete : Obligations.OperationsComplete := by
  intro i s hwf hs hadv hfire hdata hddt hfree
  cases hb : i.busAccess with
  | none => exact portOp_completes hb hadv hfire hdata hddt s
  | some b =>
    rw [exec_busAccess hb]
    refine busMeaning_completes (busRefusal_of_wellFormed hb hwf) hs fun hw r ht => ?_
    have hr : i.writesReg = some r := (writesReg_of_busAccess hb hw).trans ht
    have hchecks := hfree b r hb hr
    rwa [checks_of_writesReg hr] at hchecks

end Sys2Proof.Machine
end

section
/-! PROOF of `OutputsAreNeverRead` (O60). One equation for each procedure of the model: run on a state with other
outputs before its own, it does what it does without them, with those outputs before. The lemmas about the fields and
the updates of a state are proved by `(rfl)`, so that simp rewrites with them as equations and a condition that they
change is decided afresh. -/
namespace Sys2Proof.Machine
open Sys2Proof

/-- The state with other outputs before its own. -/
def State.precededBy (o : List Output) (s : State) : State := { s with outputs := o ++ s.outputs }

/-- The outcome with other outputs before those of the state it answers. -/
def resultPrecededBy (o : List Output) (r : Result) : Result :=
  match r with
  | .next s => .next (s.precededBy o)
  | .fault e => .fault e
  | .refused e => .refused e

section
variable (o : List Output) (s : State)

@[simp] theorem resultPrecededBy_next : resultPrecededBy o (.next s) = .next (s.precededBy o) := rfl
@[simp] theorem resultPrecededBy_refused (e : Refusal) : resultPrecededBy o (.refused e) = .refused e := rfl

/-! ## What a state with other outputs before it holds -/

@[simp] theorem precededBy_cfg : (s.precededBy o).cfg = s.cfg := (rfl)
@[simp] theorem precededBy_cpu : (s.precededBy o).cpu = s.cpu := (rfl)
@[simp] theorem precededBy_intc : (s.precededBy o).intc = s.intc := (rfl)
@[simp] theorem precededBy_refresh : (s.precededBy o).refresh = s.refresh := (rfl)
@[simp] theorem precededBy_rtcDeadline : (s.precededBy o).rtcDeadline = s.rtcDeadline := (rfl)
@[simp] theorem precededBy_gpio : (s.precededBy o).gpio = s.gpio := (rfl)
@[simp] theorem precededBy_mem : (s.precededBy o).mem = s.mem := (rfl)
@[simp] theorem precededBy_now : (s.precededBy o).now = s.now := (rfl)
@[simp] theorem precededBy_port : (s.precededBy o).port = s.port := (rfl)
@[simp] theorem precededBy_draws : (s.precededBy o).draws = s.draws := (rfl)
@[simp] theorem precededBy_cell (i : Nat) : (s.precededBy o).cell i = s.cell i := (rfl)
@[simp] theorem precededBy_reg (r : Reg) : (s.precededBy o).reg r = s.reg r := (rfl)
@[simp] theorem precededBy_chan (n : Chan) : (s.precededBy o).chan n = s.chan n := (rfl)
@[simp] theorem precededBy_timer (n : TmuChan) : (s.precededBy o).timer n = s.timer n := (rfl)

/-! ## Each update, with other outputs before it -/

@[simp] theorem setReg_precededBy (r : Reg) (v : Word) :
    (s.precededBy o).setReg r v = (s.setReg r v).precededBy o := (rfl)
@[simp] theorem setIntc_precededBy (i : Intc) : (s.precededBy o).setIntc i = (s.setIntc i).precededBy o := (rfl)
@[simp] theorem setCpu_precededBy (c : Cpu) : (s.precededBy o).setCpu c = (s.setCpu c).precededBy o := (rfl)
@[simp] theorem setChan_precededBy (n : Chan) (c : DmaChannel) :
    (s.precededBy o).setChan n c = (s.setChan n c).precededBy o := (rfl)
@[simp] theorem setTimer_precededBy (n : TmuChan) (t : TmuChannel) :
    (s.precededBy o).setTimer n t = (s.setTimer n t).precededBy o := (rfl)
@[simp] theorem setRefresh_precededBy (r : Refresh) :
    (s.precededBy o).setRefresh r = (s.setRefresh r).precededBy o := (rfl)
@[simp] theorem setRtc_precededBy (d : Option Time) : (s.precededBy o).setRtc d = (s.setRtc d).precededBy o := (rfl)
@[simp] theorem setGpio_precededBy (g : Gpio) : (s.precededBy o).setGpio g = (s.setGpio g).precededBy o := (rfl)
@[simp] theorem setMem_precededBy (m : Memory) : (s.precededBy o).setMem m = (s.setMem m).precededBy o := (rfl)
@[simp] theorem setNow_precededBy (t : Time) : (s.precededBy o).setNow t = (s.setNow t).precededBy o := (rfl)
@[simp] theorem setPort_precededBy (p : HostPort) : (s.precededBy o).setPort p = (s.setPort p).precededBy o := (rfl)
@[simp] theorem setRecord_precededBy (p : DdtRecord) :
    (s.precededBy o).setRecord p = (s.setRecord p).precededBy o := (rfl)
@[simp] theorem setDraws_precededBy (n : Nat) : (s.precededBy o).setDraws n = (s.setDraws n).precededBy o := (rfl)
@[simp] theorem storeMasked_precededBy (i : Nat) (w : Width) (a d : Word) :
    storeMasked i w a d (s.precededBy o) = (storeMasked i w a d s).precededBy o := (rfl)
@[simp] theorem emit_precededBy (x : Output) : (s.precededBy o).emit x = (s.emit x).precededBy o := by
  simp [State.emit, State.precededBy]
@[simp] theorem emitDiag_precededBy (d : Diag) : (s.precededBy o).emitDiag d = (s.emitDiag d).precededBy o :=
  emit_precededBy o s _

/-- Both branches with other outputs before them. -/
@[simp] theorem ite_precededBy (c : Prop) [Decidable c] (t : State) :
    (if c then s.precededBy o else t.precededBy o) = (if c then s else t).precededBy o :=
  (apply_ite (State.precededBy o) c s t).symm

/-- Both outcomes with other outputs before them. -/
@[simp] theorem resultPrecededBy_ite (c : Prop) [Decidable c] (r t : Result) :
    resultPrecededBy o (if c then r else t) = if c then resultPrecededBy o r else resultPrecededBy o t :=
  apply_ite (resultPrecededBy o) c r t

/-- A walk over a list whose every step does the same does the same. -/
theorem foldl_precededBy {α : Type} {f : State → α → State}
    (hf : ∀ s x, f (s.precededBy o) x = (f s x).precededBy o) (l : List α) :
    l.foldl f (s.precededBy o) = (l.foldl f s).precededBy o := by
  induction l generalizing s with
  | nil => rfl
  | cons x l ih => rw [List.foldl_cons, hf, ih, List.foldl_cons]

/-- Chained procedures that each do the same do the same. -/
theorem andThen_precededBy {f g : State → Result} (hg : ∀ s, g (s.precededBy o) = resultPrecededBy o (f s))
    (r : Result) : andThen (resultPrecededBy o r) g = resultPrecededBy o (andThen r f) := by
  cases r with
  | next s => exact hg s
  | fault e => cases e
  | refused e => rfl

/-! ## The interrupt controller -/

@[simp] theorem recompute_precededBy : recompute (s.precededBy o) = (recompute s).precededBy o := (rfl)

@[simp] theorem requestSource_precededBy (x : Source) :
    requestSource x (s.precededBy o) = (requestSource x s).precededBy o := by
  simp [requestSource]

@[simp] theorem unrequestSource_precededBy (x : Source) :
    unrequestSource x (s.precededBy o) = (unrequestSource x s).precededBy o := by
  simp [unrequestSource]

@[simp] theorem raiseAccepts_precededBy (x : Source) : raiseAccepts x (s.precededBy o) = raiseAccepts x s := (rfl)

@[simp] theorem raiseSource_precededBy (x : Source) :
    raiseSource x (s.precededBy o) = (raiseSource x s).precededBy o := by
  simp [raiseSource]

@[simp] theorem boundary_precededBy (d : Bool) : boundary d (s.precededBy o) = (boundary d s).precededBy o := by
  have hselect : select (s.precededBy o) = select s := rfl
  unfold boundary
  rw [hselect]
  cases select s <;> simp

@[simp] theorem icrIrlm_precededBy : icrIrlm (s.precededBy o) = icrIrlm s := (rfl)

@[simp] theorem irlLevelShown_precededBy (v : BitVec 4) :
    irlLevelShown v (s.precededBy o) = (irlLevelShown v s).precededBy o := by
  have hwalk := fun u => foldl_precededBy o u (f := fun s k => unrequestSource (srcIrll k) s)
    (fun u k => unrequestSource_precededBy o u (srcIrll k)) irllValues
  unfold irlLevelShown
  rw [precededBy_intc, setIntc_precededBy]
  dsimp only
  rw [hwalk]
  generalize irllValues.foldl _ _ = u
  by_cases hv : v.toNat < 15 <;> simp [hv]

@[simp] theorem priorityWritten_precededBy (k : Fin 4) :
    priorityWritten k (s.precededBy o) = (priorityWritten k s).precededBy o := by
  simp [priorityWritten]

/-! ## The DMA controller -/

@[simp] theorem dmaSetup_precededBy (n : Chan) : dmaSetup (s.precededBy o) n = dmaSetup s n := (rfl)

@[simp] theorem armChannel_precededBy (m : TransferMode) (cnt : Nat) (n : Chan) :
    armChannel m cnt (s.precededBy o) n = (armChannel m cnt s n).precededBy o := by
  cases m <;> rfl

@[simp] theorem writeBack_precededBy (n : Chan) (a b : Word) :
    writeBack n a b (s.precededBy o) = (writeBack n a b s).precededBy o := by
  simp [writeBack]

/-- What a transfer answers, with other outputs before those of its state. -/
def transferPrecededBy (r : TransferResult) : TransferResult :=
  match r with
  | .failed s => .failed (s.precededBy o)
  | .intoWindow => .intoWindow
  | .moved s a b => .moved (s.precededBy o) a b

theorem transferFrom_precededBy (n : Chan) (m : TransferMode) (a b : Word) :
    transferFrom n m a b (s.precededBy o) = transferPrecededBy o (transferFrom n m a b s) := by
  unfold transferFrom
  simp only [dmaSetup_precededBy, precededBy_cfg, precededBy_mem]
  cases dmaSetup s n with
  | error d => simp [transferPrecededBy]
  | ok p =>
    cases hc : copyBlock s.cfg s.mem a b p.count p.size p.incs p.incd with
    | none => simp [hc, transferPrecededBy]
    | some r => simp [hc, transferPrecededBy]

theorem transfer_precededBy (n : Chan) (m : TransferMode) :
    transfer n m (s.precededBy o) = resultPrecededBy o (transfer n m s) := by
  unfold transfer
  rw [transferFrom_precededBy]
  simp only [precededBy_reg]
  cases transferFrom n m (s.reg (.sar n)) (s.reg (.dar n)) s <;> simp [transferPrecededBy]

@[simp] theorem transferDevice_precededBy (n : Chan) :
    transferDevice n (s.precededBy o) = (transferDevice n s).precededBy o := by
  unfold transferDevice
  rw [dmaSetup_precededBy]
  cases dmaSetup s n <;> simp

/-- A start check reads no output, whichever of its five cases it is. -/
theorem checkChannel_precededBy (n : Chan) :
    checkChannel n (s.precededBy o) = resultPrecededBy o (checkChannel n s) := by
  rcases check_cases s n with ⟨he, ha⟩ | ⟨he, ha⟩ | ⟨he, hheld⟩ | ⟨hr, hsel⟩ | ⟨hr, hsel⟩
  · rw [check_disabled_idle he ha, check_disabled_idle (s := s.precededBy o) he ha, resultPrecededBy_next]
  · rw [check_disabled_active he ha, check_disabled_active (s := s.precededBy o) he ha]
    simp
  · rw [check_held he hheld, check_held (s := s.precededBy o) he hheld, resultPrecededBy_next]
  · rw [check_burst hr hsel, check_burst (s := s.precededBy o) hr hsel, transfer_precededBy]
  · rw [check_device hr hsel, check_device (s := s.precededBy o) hr hsel]
    simp

theorem checkEach_precededBy (ns : List Chan) :
    checkEach ns (s.precededBy o) = resultPrecededBy o (checkEach ns s) := by
  induction ns generalizing s with
  | nil => rfl
  | cons n ns ih =>
    rw [checkEach, checkEach, checkChannel_precededBy]
    exact andThen_precededBy o ih _

theorem checkAll_precededBy : checkAll (s.precededBy o) = resultPrecededBy o (checkAll s) := by
  rw [checkAll_eq_checkEach, checkAll_eq_checkEach, checkEach_precededBy]

@[simp] theorem dmaComplete_precededBy (n : Chan) :
    dmaComplete n (s.precededBy o) = (dmaComplete n s).precededBy o := by
  simp [dmaComplete]

theorem nmiCancel_precededBy (n : Chan) : nmiCancel (s.precededBy o) n = (nmiCancel s n).precededBy o := by
  simp [nmiCancel]

@[simp] theorem dmacNmi_precededBy : dmacNmi (s.precededBy o) = (dmacNmi s).precededBy o :=
  foldl_precededBy o (s.setReg .dmaor (putNmif (s.reg .dmaor) true)) (nmiCancel_precededBy o) _

/-! ## The host's transfers -/

theorem pumpToDevice_precededBy (n : Chan) (len : Nat) :
    pumpToDevice n len (s.precededBy o) = resultPrecededBy o (pumpToDevice n len s) := by
  simp [pumpToDevice]

theorem pumpToMemory_precededBy (n : Chan) (len : Nat) :
    pumpToMemory n len (s.precededBy o) = resultPrecededBy o (pumpToMemory n len s) := by
  simp [pumpToMemory]

theorem pump_precededBy (n : Chan) : pump n (s.precededBy o) = resultPrecededBy o (pump n s) := by
  simp [pump, pumpToDevice_precededBy, pumpToMemory_precededBy]

@[simp] theorem ddtAddresses_precededBy (n : Chan) :
    ddtAddresses n (s.precededBy o) = (ddtAddresses n s).precededBy o := by
  simp [ddtAddresses]

@[simp] theorem ddtLengthOk_precededBy (n : Chan) : ddtLengthOk n (s.precededBy o) = ddtLengthOk n s := (rfl)

theorem ddtTransfer_precededBy (n : Chan) :
    ddtTransfer n (s.precededBy o) = resultPrecededBy o (ddtTransfer n s) := by
  unfold ddtTransfer
  simp only [ddtAddresses_precededBy, ddtLengthOk_precededBy, precededBy_port, transferFrom_precededBy]
  split
  · rfl
  · cases transferFrom n .noTimer (ddtAddresses n s).port.record.source
      (ddtAddresses n s).port.record.destination (ddtAddresses n s) <;> simp [transferPrecededBy]

theorem rawToHost_precededBy (z cnt : Nat) :
    rawToHost z cnt (s.precededBy o) = resultPrecededBy o (rawToHost z cnt s) := by
  unfold rawToHost
  simp only [precededBy_port, precededBy_cfg]
  split <;> simp

theorem rawToMemory_precededBy (z cnt : Nat) :
    rawToMemory z cnt (s.precededBy o) = resultPrecededBy o (rawToMemory z cnt s) := by
  unfold rawToMemory
  simp only [precededBy_port, precededBy_cfg]
  split <;> simp [rawBufferWord]

theorem ddtRaw_precededBy : ddtRaw (s.precededBy o) = resultPrecededBy o (ddtRaw s) := by
  unfold ddtRaw
  cases hd : s.port.record.direction <;> simp [hd, rawToHost_precededBy, rawToMemory_precededBy]

theorem ddt_precededBy (n : Chan) : ddt n (s.precededBy o) = resultPrecededBy o (ddt n s) := by
  simp [ddt, ddtRaw_precededBy, ddtTransfer_precededBy]

/-! ## The timers -/

@[simp] theorem tmuLive_precededBy (n : TmuChan) : tmuLive n (s.precededBy o) = tmuLive n s := (rfl)

@[simp] theorem tmuArm_precededBy (n : TmuChan) : tmuArm n (s.precededBy o) = (tmuArm n s).precededBy o := by
  simp [tmuArm]

@[simp] theorem tmuExpire_precededBy (n : TmuChan) :
    tmuExpire n (s.precededBy o) = (tmuExpire n s).precededBy o := by
  simp [tmuExpire]

theorem tstrChannel_precededBy (old : Word) (n : TmuChan) :
    tstrChannel old (s.precededBy o) n = (tstrChannel old s n).precededBy o := by
  simp [tstrChannel]

@[simp] theorem tstrWritten_precededBy (old : State) :
    tstrWritten (old.precededBy o) (s.precededBy o) = (tstrWritten old s).precededBy o :=
  foldl_precededBy o s (fun s n => tstrChannel_precededBy o s (old.reg .tstr) n) _

@[simp] theorem tcntWritten_precededBy (n : TmuChan) :
    tcntWritten n (s.precededBy o) = (tcntWritten n s).precededBy o := by
  simp [tcntWritten]

@[simp] theorem tcrWritten_precededBy (n : TmuChan) (old : State) :
    tcrWritten n (old.precededBy o) (s.precededBy o) = (tcrWritten n old s).precededBy o := by
  simp [tcrWritten]

@[simp] theorem refActive_precededBy : refActive (s.precededBy o) = refActive s := (rfl)

@[simp] theorem refLive_precededBy : refLive (s.precededBy o) = refLive s := (rfl)

@[simp] theorem refArm_precededBy : refArm (s.precededBy o) = (refArm s).precededBy o := by
  simp [refArm]

@[simp] theorem refStop_precededBy : refStop (s.precededBy o) = (refStop s).precededBy o := by
  simp [refStop]

@[simp] theorem refExpire_precededBy : refExpire (s.precededBy o) = (refExpire s).precededBy o := by
  simp [refExpire, refCount]

@[simp] theorem rtcsrWritten_precededBy (old : State) :
    rtcsrWritten (old.precededBy o) (s.precededBy o) = (rtcsrWritten old s).precededBy o := by
  simp [rtcsrWritten]

@[simp] theorem rtcntWritten_precededBy : rtcntWritten (s.precededBy o) = (rtcntWritten s).precededBy o := by
  simp [rtcntWritten]

@[simp] theorem rtcorWritten_precededBy : rtcorWritten (s.precededBy o) = (rtcorWritten s).precededBy o := by
  simp [rtcorWritten]

@[simp] theorem rfcrWritten_precededBy : rfcrWritten (s.precededBy o) = (rfcrWritten s).precededBy o := by
  simp [rfcrWritten]

/-! ## The calendar and the real-time clock -/

theorem calStage_precededBy {next : State → State}
    (hn : ∀ s, next (s.precededBy o) = (next s).precededBy o) (r : Reg) (limit first : Word) :
    calStage r limit first next (s.precededBy o) = (calStage r limit first next s).precededBy o := by
  simp [calStage, hn]

theorem incMonth_precededBy : incMonth (s.precededBy o) = (incMonth s).precededBy o :=
  calStage_precededBy (next := incYear) o s (fun _ => rfl) ..

theorem incWeekday_precededBy : incWeekday (s.precededBy o) = (incWeekday s).precededBy o := by
  simp [incWeekday]

theorem incDay_precededBy : incDay (s.precededBy o) = (incDay s).precededBy o := by
  simp [incDay, incWeekday_precededBy, incMonth_precededBy]

theorem incHour_precededBy : incHour (s.precededBy o) = (incHour s).precededBy o :=
  calStage_precededBy o s (incDay_precededBy o) ..

@[simp] theorem incMinute_precededBy : incMinute (s.precededBy o) = (incMinute s).precededBy o :=
  calStage_precededBy o s (incHour_precededBy o) ..

@[simp] theorem incSecond_precededBy : incSecond (s.precededBy o) = (incSecond s).precededBy o :=
  calStage_precededBy o s (incMinute_precededBy o) ..

@[simp] theorem rtcExpire_precededBy : rtcExpire (s.precededBy o) = (rtcExpire s).precededBy o := by
  simp [rtcExpire]

@[simp] theorem rcr2ResetAction_precededBy :
    rcr2ResetAction (s.precededBy o) = (rcr2ResetAction s).precededBy o := by
  simp [rcr2ResetAction]

@[simp] theorem rcr2AdjAction_precededBy : rcr2AdjAction (s.precededBy o) = (rcr2AdjAction s).precededBy o := by
  simp [rcr2AdjAction]

@[simp] theorem rcr2StartStop_precededBy (old : Word) :
    rcr2StartStop old (s.precededBy o) = (rcr2StartStop old s).precededBy o := by
  simp [rcr2StartStop]

@[simp] theorem rcr2Written_precededBy (old : State) :
    rcr2Written (old.precededBy o) (s.precededBy o) = (rcr2Written old s).precededBy o := by
  simp [rcr2Written]

theorem expire_precededBy (x : TimerId) : expire x (s.precededBy o) = (expire x s).precededBy o := by
  cases x with
  | dma n => exact dmaComplete_precededBy ..
  | tmu n => exact tmuExpire_precededBy ..
  | ref => exact refExpire_precededBy ..
  | rtc => exact rtcExpire_precededBy ..

theorem timerDue_precededBy (x : TimerId) : timerDue x (s.precededBy o) = timerDue x s := by
  cases x <;> rfl

/-! ## The GPIO glue -/

@[simp] theorem gpioPush16_precededBy : gpioPush16 (s.precededBy o) = (gpioPush16 s).precededBy o := by
  simp [gpioPush16]

@[simp] theorem gpioPush4_precededBy : gpioPush4 (s.precededBy o) = (gpioPush4 s).precededBy o := by
  simp [gpioPush4]

@[simp] theorem pctraWritten_precededBy : pctraWritten (s.precededBy o) = (pctraWritten s).precededBy o := by
  simp [pctraWritten]

@[simp] theorem pctrbWritten_precededBy : pctrbWritten (s.precededBy o) = (pctrbWritten s).precededBy o := by
  simp [pctrbWritten]

/-! ## The bus -/

theorem writeHandler_precededBy (r : Reg) (old : State) :
    writeHandler r (old.precededBy o) (s.precededBy o) = resultPrecededBy o (writeHandler r old s) := by
  cases r with
  | sar n | dar n | dmatcr n | chcr n => exact checkChannel_precededBy ..
  | dmaor => simp [writeHandler, checkAll_precededBy]
  | _ => simp [writeHandler]

theorem readValue_precededBy (r : Reg) : readValue r (s.precededBy o) = readValue r s := by
  cases r <;> rfl

theorem busWrite_precededBy {f : State → State → Result}
    (hf : ∀ old new, f (old.precededBy o) (new.precededBy o) = resultPrecededBy o (f old new))
    (i : Nat) (w : Width) (a d : Word) :
    busWrite i w a d f (s.precededBy o) = resultPrecededBy o (busWrite i w a d f s) := by
  unfold busWrite
  rw [precededBy_cfg, storeMasked_precededBy, hf]
  cases busRefusal s.cfg w a <;> rfl

theorem busWriteIgnored_precededBy (w : Width) (a : Word) :
    busWriteIgnored w a (s.precededBy o) = resultPrecededBy o (busWriteIgnored w a s) := by
  unfold busWriteIgnored
  rw [precededBy_cfg]
  cases busRefusal s.cfg w a <;> rfl

theorem busRead_precededBy {f : State → Word} (hf : ∀ s, f (s.precededBy o) = f s) (w : Width) (a : Word) :
    busRead w a f (s.precededBy o) = resultPrecededBy o (busRead w a f s) := by
  unfold busRead
  rw [precededBy_cfg, hf, emit_precededBy]
  cases busRefusal s.cfg w a <;> rfl

theorem busMeaning_precededBy (b : BusAccess) :
    busMeaning b (s.precededBy o) = resultPrecededBy o (busMeaning b s) := by
  unfold busMeaning
  split
  · exact busRead_precededBy o s (fun _ => rfl) ..
  · exact busRead_precededBy o s (fun s => readValue_precededBy o s _) ..
  · exact busWrite_precededBy o s (fun _ new => congrArg _ (emitDiag_precededBy o new _)) ..
  · exact busWriteIgnored_precededBy ..
  · exact busWriteIgnored_precededBy ..
  · exact busWriteIgnored_precededBy ..
  · exact busWrite_precededBy o s (fun old new => writeHandler_precededBy o new _ old) ..

/-! ## Every operation -/

theorem setIrl_precededBy (k : Fin 4) (v : Bool) :
    exec (.setIrl k v) (s.precededBy o) = resultPrecededBy o (exec (.setIrl k v) s) := by
  change execSetIrl k v (s.precededBy o) = resultPrecededBy o (execSetIrl k v s)
  simp [execSetIrl]

theorem setIrln_precededBy (v : Word) :
    exec (.setIrln v) (s.precededBy o) = resultPrecededBy o (exec (.setIrln v) s) := by
  change execSetIrln v (s.precededBy o) = resultPrecededBy o (execSetIrln v s)
  simp [execSetIrln]

theorem setNmi_precededBy (v : Bool) :
    exec (.setNmi v) (s.precededBy o) = resultPrecededBy o (exec (.setNmi v) s) := by
  change execSetNmi v (s.precededBy o) = resultPrecededBy o (execSetNmi v s)
  simp [execSetNmi]

theorem advance_precededBy (dt : Word) :
    exec (.advance dt) (s.precededBy o) = resultPrecededBy o (exec (.advance dt) s) := by
  have henabled : advanceEnabled dt (s.precededBy o) = advanceEnabled dt s := rfl
  change execAdvance dt (s.precededBy o) = resultPrecededBy o (execAdvance dt s)
  simp [execAdvance, henabled]

theorem fire_precededBy (x : TimerId) :
    exec (.fire x) (s.precededBy o) = resultPrecededBy o (exec (.fire x) s) := by
  change execFire x (s.precededBy o) = resultPrecededBy o (execFire x s)
  simp [execFire, timerDue_precededBy, expire_precededBy]

/-- 00_scope R16: with other outputs before it, every operation has the same outcome with them before it. -/
theorem exec_precededBy (i : Instr) : exec i (s.precededBy o) = resultPrecededBy o (exec i s) := by
  cases hb : i.busAccess with
  | some b => rw [exec_busAccess hb, exec_busAccess hb, busMeaning_precededBy]
  | none =>
    cases i with
    | request x => exact congrArg _ (requestSource_precededBy ..)
    | unrequest x => exact congrArg _ (unrequestSource_precededBy ..)
    | recompute => rfl
    | boundary d => exact congrArg _ (boundary_precededBy ..)
    | raise x => exact congrArg _ (raiseSource_precededBy ..)
    | setIrl k v => exact setIrl_precededBy ..
    | setIrln v => exact setIrln_precededBy ..
    | setNmi v => exact setNmi_precededBy ..
    | dmaData n => exact pump_precededBy ..
    | dmaDdt n => exact ddt_precededBy ..
    | advance dt => exact advance_precededBy ..
    | fire x => exact fire_precededBy ..
    | reset => rfl
    | _ => cases hb

end

/-- Settles O60: the one equation `exec_precededBy`, at each of the two outcomes. -/
theorem outputsAreNeverRead : Obligations.OutputsAreNeverRead := by
  intro i s o
  have hx : exec i { s with outputs := o ++ s.outputs } = resultPrecededBy o (exec i s) := exec_precededBy o s i
  exact ⟨fun t h => by rw [hx, h]; rfl, fun e h => by rw [hx, h]; rfl⟩

end Sys2Proof.Machine
end

section
/-! SUPPORT. The frame of every operation but `RESET`: one effect for each, the parts beside the block's units that
it may write (the CPU context, the lines, the host's operands, time), and one lemma that it stays within them. -/
namespace Sys2Proof.Machine
open Sys2Proof

/-- What an operation other than `RESET` may write of the block's units. -/
def execEffect (cfg : Config) (i : Instr) : Effect :=
  match i with
  | .request _ | .unrequest _ | .recompute | .setIrl _ _ | .setIrln _ => { requests := true }
  | .raise _ => { cells := [cfg.index .intevt], requests := true }
  | .boundary d => if d then {} else { cells := [cfg.index .intevt], requests := true }
  | .setNmi v => if v then { cells := [cfg.index .dmaor], chans := [0, 1, 2, 3], requests := true } else {}
  | .dmaData n => { chans := [n], mem := true }
  | .dmaDdt n => { cells := [cfg.index (.sar n), cfg.index (.dar n)], mem := true }
  | .fire x => expiryEffect cfg x
  | i => match i.busAccess with
    | some b => busEffect cfg b
    | none => {}

/-- The state `s`, with what the operation may write beside the block's units taken from `t`. -/
def besideUnits (i : Instr) (s t : State) : State :=
  match i with
  | .raise _ | .boundary _ => s.setCpu t.cpu
  | .setIrl _ _ => s.setIntc { s.intc with irlLine := t.intc.irlLine }
  | .setIrln _ => s.setIntc { s.intc with irlLevel := t.intc.irlLevel }
  | .setNmi _ => s.setIntc { s.intc with nmiLine := t.intc.nmiLine }
  | .dmaData _ | .dmaDdt _ => (s.setPort t.port).setDraws t.draws
  | .advance _ => s.setNow t.now
  | _ => s

/-! ## Bus operations -/

theorem execEffect_busAccess {i : Instr} {b : BusAccess} (h : i.busAccess = some b) (cfg : Config) :
    execEffect cfg i = busEffect cfg b := by
  cases i <;> first | (cases h; done) | (cases h; rfl)

theorem besideUnits_busAccess {i : Instr} {b : BusAccess} (h : i.busAccess = some b) (s t : State) :
    besideUnits i s t = s := by
  cases i <;> first | (cases h; done) | rfl

/-! ## The interrupt controller -/

section
variable {e : Effect} {s t : State} (h : Within e s t)
include h

theorem within_setCpu_both (c : Cpu) : Within e (s.setCpu c) (t.setCpu c) := { h with cpu := rfl }

theorem within_setPort_both (p : HostPort) : Within e (s.setPort p) (t.setPort p) := { h with port := rfl }

theorem within_setDraws_both (n : Nat) : Within e (s.setDraws n) (t.setDraws n) := { h with draws := rfl }

theorem within_unrequest_foldl (he : e.requests = true) (l : List (Fin 15)) :
    Within e s (l.foldl (fun s k => unrequestSource (srcIrll k) s) t) := by
  induction l generalizing t with
  | nil => exact h
  | cons k l ih => exact ih (within_unrequest h he _)

end

/-- The CPU context, as an operation leaves it. -/
theorem within_context {e : Effect} {s u t : State} (h : Within e u t) (hu : s.setCpu u.cpu = u) :
    Within e (s.setCpu t.cpu) t := by
  rwa [h.cpu, hu]

theorem within_raiseSource (x : Source) (s : State) :
    Within { cells := [s.cfg.index .intevt], requests := true } (s.setCpu (raiseSource x s).cpu)
      (raiseSource x s) := by
  unfold raiseSource
  split
  · exact within_self _ s
  · dsimp only
    have hlogged := within_emitDiag (within_emit (within_setReg
      (within_self { cells := [s.cfg.index .intevt], requests := true } s) (r := .intevt) (List.mem_singleton_self _)
      (s.cfg.evtCode.getD x.val 0)) (.irqAck (s.cfg.ackArg.getD x.val 0)))
      (if x = srcNmi then .nmiRaised x else .irqRaised x)
    generalize ((s.setReg .intevt (s.cfg.evtCode.getD x.val 0)).emit (.irqAck (s.cfg.ackArg.getD x.val 0))).emitDiag
      (if x = srcNmi then .nmiRaised x else .irqRaised x) = s3 at hlogged ⊢
    have hcleared : Within { cells := [s.cfg.index .intevt], requests := true } s
        (if autoCleared x then unrequestSource x s3 else s3) := by
      split
      · exact within_unrequest hlogged rfl x
      · exact hlogged
    exact within_context (within_setCpu_both (within_recompute (within_setCpu_both hcleared _) rfl) _) rfl

theorem boundary_delayed (s : State) : boundary true s = s := by
  simp [boundary]

theorem within_boundary (d : Bool) (s : State) :
    Within (execEffect s.cfg (.boundary d)) (s.setCpu (boundary d s).cpu) (boundary d s) := by
  cases d with
  | true =>
    rw [boundary_delayed]
    exact within_self _ s
  | false =>
    rcases boundary_cases false s with h | ⟨x, h⟩
    · rw [h]
      exact within_self _ s
    · rw [h]
      exact within_raiseSource x s

theorem within_setIrl {k : Fin 4} {v : Bool} {s t : State} (h : exec (.setIrl k v) s = .next t) :
    Within { requests := true } (s.setIntc { s.intc with irlLine := t.intc.irlLine }) t := by
  change execSetIrl k v s = _ at h
  unfold execSetIrl at h
  split at h
  · cases h
    exact within_self _ s
  · split at h
    · cases h
      exact within_self _ s
    · cases h
      dsimp only
      generalize hs1 : s.setIntc { s.intc with irlLine := s.intc.irlLine.set k v } = s1
      have hw : Within { requests := true } s1
          (if v then requestSource (srcIrl k) s1 else unrequestSource (srcIrl k) s1) := by
        split
        · exact within_request (within_self _ s1) rfl _
        · exact within_unrequest (within_self _ s1) rfl _
      rw [hw.lines.1, ← hs1]
      rw [← hs1] at hw
      exact hw

theorem within_setIrln {v : Word} {s t : State} (h : exec (.setIrln v) s = .next t) :
    Within { requests := true } (s.setIntc { s.intc with irlLevel := t.intc.irlLevel }) t := by
  change execSetIrln v s = _ at h
  unfold execSetIrln at h
  split at h
  · cases h
    exact within_self _ s
  · split at h
    · cases h
      exact within_emitDiag (within_self _ s) _
    · cases h
      have hw : Within { requests := true } (s.setIntc { s.intc with irlLevel := field v 0 4 })
          (irlLevelShown (field v 0 4) s) := by
        unfold irlLevelShown
        have hall := within_unrequest_foldl (within_self { requests := true }
          (s.setIntc { s.intc with irlLevel := field v 0 4 })) rfl irllValues
        split
        · exact within_request hall rfl _
        · exact hall
      rw [hw.lines.2.1]
      exact hw

theorem within_setNmi_units {v : Bool} {s t : State} (h : exec (.setNmi v) s = .next t) :
    Within (execEffect s.cfg (.setNmi v)) (s.setIntc { s.intc with nmiLine := t.intc.nmiLine }) t := by
  cases v with
  | true => exact within_setNmi h
  | false =>
    rcases setNmi_next h with (rfl | rfl) | ⟨hv, -⟩
    · exact within_self _ _
    · exact within_self _ _
    · cases hv

/-! ## The host's transfers -/

/-- The host's operands and the free values, as an operation leaves them. -/
theorem within_hostOperands {e : Effect} {s u t : State} (h : Within e u t)
    (hu : (s.setPort u.port).setDraws u.draws = u) : Within e ((s.setPort t.port).setDraws t.draws) t := by
  rwa [h.port, h.draws, hu]

theorem within_pump {n : Chan} {s t : State} (h : pump n s = .next t) :
    Within { chans := [n], mem := true } ((s.setPort t.port).setDraws t.draws) t := by
  have h0 : Within { chans := [n], mem := true } s s := within_self _ s
  have hn : n ∈ [n] := List.mem_singleton_self n
  unfold pump at h
  dsimp only at h
  split at h
  · cases h
    exact within_hostOperands (within_emit h0 _) rfl
  · split at h
    · unfold pumpToDevice at h
      dsimp only at h
      split at h
      · cases h
      · cases h
        exact within_hostOperands (within_emit (within_setChan (within_setPort_both h0 _) hn _) _) rfl
    · unfold pumpToMemory at h
      dsimp only at h
      split at h
      · cases h
      · cases h
        refine within_hostOperands (within_emit (within_setChan (within_setMem h0 rfl fun hw => ?_) hn _) _) rfl
        exact foldl_wf _ (fun m k hm => writeUnit_wf hm _ _ _ _) _ hw

/-- What a direct transfer may write. -/
def ddtEffect (cfg : Config) (n : Chan) : Effect :=
  { cells := [cfg.index (.sar n), cfg.index (.dar n)], mem := true }

theorem within_ddtAddresses (n : Chan) (s : State) :
    Within (ddtEffect s.cfg n) (s.setPort (ddtAddresses n s).port) (ddtAddresses n s) := by
  have h0 : Within (ddtEffect s.cfg n) s s := within_self _ s
  unfold ddtAddresses
  dsimp only
  generalize (if s.port.record.rdSrc then s.reg (.sar n) else s.port.record.source) = src
  have hsrc : Within (ddtEffect s.cfg n) s (if s.port.record.wrSrc then s.setReg (.sar n) src else s) := by
    split
    · exact within_setReg h0 (by simp [ddtEffect]) _
    · exact h0
  have hport := hsrc.port
  generalize (if s.port.record.wrSrc then s.setReg (.sar n) src else s) = s1 at hsrc hport
  generalize (if s.port.record.rdDst then s1.reg (.dar n) else s.port.record.destination) = dst
  have hdst : Within (ddtEffect s.cfg n) s (if s.port.record.wrDst then s1.setReg (.dar n) dst else s1) := by
    split
    · exact within_setReg hsrc (by simp [ddtEffect]) _
    · exact hsrc
  exact within_setPort_both hdst _

/-- A transfer without a timer writes memory alone. -/
theorem within_transferFrom_noTimer {e : Effect} {u s : State} (h : Within e u s) (he : e.mem = true) (n : Chan)
    (src dst : Word) :
    match transferFrom n .noTimer src dst s with
    | .failed t => Within e u t
    | .intoWindow => True
    | .moved t _ _ => Within e u t := by
  unfold transferFrom
  cases dmaSetup s n with
  | error d => exact within_emitDiag h d
  | ok p =>
    dsimp only
    cases hcopy : copyBlock s.cfg s.mem src dst p.count p.size p.incs p.incd with
    | none => trivial
    | some r => exact within_setMem h he (copyBlock_wf hcopy)

theorem within_ddtTransfer {n : Chan} {s t : State} (h : ddtTransfer n s = .next t) :
    Within (ddtEffect s.cfg n) ((s.setPort t.port).setDraws t.draws) t := by
  have haddr := within_ddtAddresses n s
  unfold ddtTransfer at h
  dsimp only at h
  generalize ddtAddresses n s = s1 at h haddr
  split at h
  · cases h
    exact within_hostOperands haddr rfl
  · have hmove := within_transferFrom_noTimer haddr rfl n s1.port.record.source s1.port.record.destination
    split at h
    · rename_i hfailed
      rw [hfailed] at hmove
      cases h
      exact within_hostOperands hmove rfl
    · cases h
    · rename_i hmoved
      rw [hmoved] at hmove
      cases h
      exact within_hostOperands (within_setPort_both hmove _) rfl

theorem within_rawToHost {z cnt : Nat} {s t : State} (h : rawToHost z cnt s = .next t) :
    Within { mem := true } ((s.setPort t.port).setDraws t.draws) t := by
  unfold rawToHost at h
  dsimp only at h
  split at h
  · cases h
  · cases h
    exact within_hostOperands (within_setPort_both (within_self _ s) _) rfl

theorem within_rawToMemory {z cnt : Nat} {s t : State} (h : rawToMemory z cnt s = .next t) :
    Within { mem := true } ((s.setPort t.port).setDraws t.draws) t := by
  unfold rawToMemory at h
  dsimp only at h
  split at h
  · cases h
  · cases h
    refine within_hostOperands (within_setPort_both (within_setDraws_both (within_setMem (within_self _ s) rfl
      fun hw => ?_) _) _) rfl
    exact foldl_wf _ (fun m k hm => memWrite_wf hm _ _ _) _ hw

theorem within_ddtRaw {s t : State} (h : ddtRaw s = .next t) :
    Within { mem := true } ((s.setPort t.port).setDraws t.draws) t := by
  unfold ddtRaw at h
  dsimp only at h
  split at h
  · split at h
    · exact within_rawToHost h
    · exact within_rawToMemory h
  · split at h
    · split at h
      · exact within_rawToHost h
      · exact within_rawToMemory h
    · cases h
      exact within_self _ s

theorem within_ddt {n : Chan} {s t : State} (h : ddt n s = .next t) :
    Within (ddtEffect s.cfg n) ((s.setPort t.port).setDraws t.draws) t := by
  unfold ddt at h
  split at h
  · cases h
    exact within_self _ s
  · split at h
    · have hraw := within_ddtRaw h
      exact { hraw with cells := fun i _ => hraw.cells i (List.not_mem_nil), mem := nofun }
    · exact within_ddtTransfer h

/-! ## Every operation -/

/-- Every operation but `RESET` stays within its effect. -/
theorem within_exec {i : Instr} {s t : State} (hx : exec i s = .next t) (hne : i ≠ .reset) :
    Within (execEffect s.cfg i) (besideUnits i s t) t := by
  cases hb : i.busAccess with
  | some b =>
    rw [execEffect_busAccess hb, besideUnits_busAccess hb]
    exact within_busAccess hb hx
  | none =>
    cases i with
    | request x =>
      cases hx
      exact within_request (within_self _ s) rfl x
    | unrequest x =>
      cases hx
      exact within_unrequest (within_self _ s) rfl x
    | recompute =>
      cases hx
      exact within_recompute (within_self _ s) rfl
    | raise x =>
      cases hx
      exact within_raiseSource x s
    | boundary d =>
      cases hx
      exact within_boundary d s
    | setIrl k v => exact within_setIrl hx
    | setIrln v => exact within_setIrln hx
    | setNmi v => exact within_setNmi_units hx
    | dmaData n => exact within_pump hx
    | dmaDdt n => exact within_ddt hx
    | advance dt =>
      rw [(advance_next hx).2]
      exact within_self _ _
    | fire x =>
      rw [(fire_next hx).2]
      exact within_expire x s
    | reset => exact absurd rfl hne
    | _ => cases hb

end Sys2Proof.Machine
end

section
/-! PROOF of `ContextFrame` (O57). The frame of every operation gives all but the CPU context: of that an operation
writes what a dispatch does, or `RESET`, or nothing. -/
namespace Sys2Proof.Machine
open Sys2Proof

/-- The status register that a dispatch leaves. -/
theorem entered_sr (cfg : Config) (c : Cpu) (offset : Word) :
    ((c.entered cfg).vectored offset).sr = srEntered cfg c.sr := rfl

/-- `RAISE` leaves the CPU context, or enters the exception. -/
theorem raiseSource_cpu (x : Source) (s : State) :
    (raiseSource x s).cpu = s.cpu ∨ ∃ offset, (raiseSource x s).cpu = (s.cpu.entered s.cfg).vectored offset := by
  by_cases h : Accepts s x
  · obtain ⟨i, he, -, -⟩ := raiseSource_accepted h
    exact .inr ⟨_, by rw [he]; rfl⟩
  · exact .inl (by rw [raiseSource_declined h])

theorem boundary_cpu (d : Bool) (s : State) :
    (boundary d s).cpu = s.cpu ∨ ∃ offset, (boundary d s).cpu = (s.cpu.entered s.cfg).vectored offset := by
  rcases boundary_cases d s with h | ⟨x, h⟩
  · exact .inl (by rw [h])
  · rw [h]
    exact raiseSource_cpu x s

theorem besideUnits_cpu {i : Instr} (hraise : ∀ x, i ≠ .raise x) (hboundary : ∀ d, i ≠ .boundary d) (s t : State) :
    (besideUnits i s t).cpu = s.cpu := by
  unfold besideUnits
  split
  case h_1 x => exact absurd rfl (hraise x)
  case h_2 d => exact absurd rfl (hboundary d)
  all_goals rfl

theorem besideUnits_now {i : Instr} (h : ∀ dt, i ≠ .advance dt) (s t : State) : (besideUnits i s t).now = s.now := by
  unfold besideUnits
  split
  case h_8 dt => exact absurd rfl (h dt)
  all_goals rfl

theorem besideUnits_hostOperands {i : Instr} (hdata : ∀ n, i ≠ .dmaData n) (hddt : ∀ n, i ≠ .dmaDdt n)
    (s t : State) : (besideUnits i s t).port = s.port ∧ (besideUnits i s t).draws = s.draws := by
  unfold besideUnits
  split
  case h_6 n => exact absurd rfl (hdata n)
  case h_7 n => exact absurd rfl (hddt n)
  all_goals exact ⟨rfl, rfl⟩

theorem besideUnits_environment (i : Instr) (s t : State) :
    (besideUnits i s t).cfg = s.cfg ∧ (besideUnits i s t).pins16 = s.pins16 ∧
    (besideUnits i s t).pins4 = s.pins4 ∧ (besideUnits i s t).events = s.events ∧
    (besideUnits i s t).outputs = s.outputs := by
  unfold besideUnits
  split <;> exact ⟨rfl, rfl, rfl, rfl, rfl⟩

/-- An operation but `RESET` leaves the CPU context, or dispatches and enters the exception. -/
theorem exec_cpu {i : Instr} {s t : State} (hx : exec i s = .next t) (hne : i ≠ .reset) :
    t.cpu = s.cpu ∨ ((∃ x, i = .raise x) ∨ ∃ d, i = .boundary d) ∧
      ∃ offset, t.cpu = (s.cpu.entered s.cfg).vectored offset := by
  by_cases hraise : ∃ x, i = .raise x
  · obtain ⟨x, rfl⟩ := hraise
    cases hx
    exact (raiseSource_cpu x s).imp_right fun h => ⟨.inl ⟨x, rfl⟩, h⟩
  · by_cases hboundary : ∃ d, i = .boundary d
    · obtain ⟨d, rfl⟩ := hboundary
      cases hx
      exact (boundary_cpu d s).imp_right fun h => ⟨.inr ⟨d, rfl⟩, h⟩
    · exact .inl ((within_exec hx hne).cpu.trans
        (besideUnits_cpu (not_exists.1 hraise) (not_exists.1 hboundary) s t))

/-- `RESET` with the spec's values clears no bit of the status register (10_state R22). -/
theorem bit_srReset_of_default {cfg : Config} (h : cfg.reset = defaultReset) {v : Word} {j : Nat}
    (hj : bit v j = true) : bit (srReset cfg v) j = true := by
  rw [bit_srReset, h]
  have himask : ∀ k < 4, defaultReset.imask.getLsbD k = true := by decide
  split
  · exact himask _ (by omega)
  · simp [defaultReset, hj]

/-- Settles O57: `RESET` by what it installs, every other operation by its frame. -/
theorem contextFrame : Obligations.ContextFrame := by
  intro i s t hx
  by_cases hreset : i = .reset
  · subst hreset
    cases hx
    refine ⟨⟨rfl, rfl, rfl, rfl, rfl, rfl, rfl⟩, fun _ _ h => absurd rfl h, fun _ => ⟨rfl, rfl, rfl, rfl⟩,
      fun h => absurd rfl h, fun h j hj => bit_srReset_of_default (h rfl) hj, ⟨rfl, rfl, rfl, rfl⟩,
      fun _ => rfl, fun _ _ => ⟨rfl, rfl⟩, ⟨[], (List.append_nil _).symm⟩⟩
  · have hw := within_exec hx hreset
    obtain ⟨hcfg, hp16, hp4, hevents, houtputs⟩ := besideUnits_environment i s t
    refine ⟨?_, ?_, fun h => absurd h hreset, ?_, ?_,
      ⟨hw.cfg.trans hcfg, hw.pins.1.trans hp16, hw.pins.2.trans hp4, hw.events.trans hevents⟩,
      fun h => hw.now.trans (besideUnits_now h s t), fun hdata hddt => ?_, houtputs ▸ hw.outputs⟩
    · rcases exec_cpu hx hreset with h | ⟨-, offset, h⟩ <;> rw [h] <;> exact ⟨rfl, rfl, rfl, rfl, rfl, rfl, rfl⟩
    · intro hraise hboundary _
      exact hw.cpu.trans (besideUnits_cpu hraise hboundary s t)
    · intro _ j hmd hrb hbl
      rcases exec_cpu hx hreset with h | ⟨-, offset, h⟩
      · rw [h]
      · rw [h, entered_sr, bit_srEntered]
        simp [hmd, hrb, hbl]
    · intro _ j hj
      rcases exec_cpu hx hreset with h | ⟨-, offset, h⟩
      · rwa [h]
      · rw [h, entered_sr, bit_srEntered, hj, Bool.or_true]
    · obtain ⟨hport, hdraws⟩ := besideUnits_hostOperands hdata hddt s t
      exact ⟨hw.port.trans hport, hw.draws.trans hdraws⟩

end Sys2Proof.Machine
end

section
/-! SUPPORT. The invariant of the block, part by part: what each part is read from, and that an operation which
writes none of it keeps the part (10_state R43 to R53; 43_regfile R296). -/
namespace Sys2Proof.Machine
open Sys2Proof

/-! ## The parts -/

/-- The parts of the block whose invariants do not meet. -/
inductive BlockPart where
  | widths
  | intc
  | chan (n : Chan)
  | timer (n : TmuChan)
  | refresh
  | clock
  | pins

/-- A deadline, if there is one, is not passed. -/
def OnTime (s : State) (d : Option Time) : Prop := ∀ x, d = some x → s.now ≤ x

/-- The invariant of a part, with its deadline not passed. -/
def BlockPart.Holds (p : BlockPart) (s : State) : Prop :=
  match p with
  | .widths => WidthsKept s.reg
  | .intc => IntcInv s
  | .chan n => ChannelInv (s.chan n) ∧ OnTime s (s.chan n).deadline
  | .timer n => TmuInv s n ∧ OnTime s (s.timer n).deadline
  | .refresh => RefreshInv s ∧ OnTime s s.refresh.deadline
  | .clock => s.rtcDeadline.isSome = rcr2Start (s.reg .rcr2) ∧ OnTime s s.rtcDeadline
  | .pins => GpioAgrees s.gpio (s.reg .pctra) (s.reg .pctrb)

/-- The registers that the invariant of a part speaks of. -/
def BlockPart.reads (p : BlockPart) : List Reg :=
  match p with
  | .widths => [.rtcsr, .rtcnt, .rtcor, .rcr2, .rfcr, .pvr, .prr, .rsvz]
  | .intc => [.ipr 0, .ipr 1, .ipr 2, .ipr 3]
  | .chan _ => []
  | .timer n => [.tstr, .tcnt n, .tcr n]
  | .refresh => [.rtcsr, .rtcnt, .rtcor]
  | .clock => [.rcr2]
  | .pins => [.pctra, .pctrb]

/-- The effect names the part's own state. -/
def BlockPart.Named (p : BlockPart) (e : Effect) : Prop :=
  match p with
  | .widths => False
  | .intc => e.requests = true ∨ e.prio = true
  | .chan n => n ∈ e.chans
  | .timer n => n ∈ e.timers
  | .refresh => e.refresh = true
  | .clock => e.rtc = true
  | .pins => e.gpio = true

/-- The effect names the part's own state, or a cell that its invariant speaks of. -/
def BlockPart.Touched (p : BlockPart) (cfg : Config) (e : Effect) : Prop :=
  p.Named e ∨ ∃ r ∈ p.reads, cfg.index r ∈ e.cells

theorem onTime_iff {s : State} : noDeadlineBefore s.now s = true ↔
    (∀ n, OnTime s (s.chan n).deadline) ∧ (∀ n, OnTime s (s.timer n).deadline) ∧
    OnTime s s.refresh.deadline ∧ OnTime s s.rtcDeadline := by
  rw [noDeadlineBefore_iff]
  constructor
  · intro h
    exact ⟨fun n => h (.dma n), fun n => h (.tmu n), h .ref, h .rtc⟩
  · rintro ⟨hdma, htmu, href, hrtc⟩ i
    cases i with
    | dma n => exact hdma n
    | tmu n => exact htmu n
    | ref => exact href
    | rtc => exact hrtc

theorem onTime_now {s : State} {d : Time} (h : s.now ≤ d) : OnTime s (some d) := by
  intro x hx
  cases hx
  exact h

theorem onTime_none (s : State) : OnTime s none := nofun

/-- Each part of the block meets its invariant. -/
theorem Inv.part {s : State} (h : Inv s) (p : BlockPart) : p.Holds s := by
  obtain ⟨hdma, htmu, href, hrtc⟩ := onTime_iff.1 h.time
  cases p with
  | widths => exact h.regs
  | intc => exact h.intc
  | chan n => exact ⟨h.dma n, hdma n⟩
  | timer n => exact ⟨h.tmu n, htmu n⟩
  | refresh => exact ⟨h.refresh, href⟩
  | clock => exact ⟨h.rtc, hrtc⟩
  | pins => exact h.gpio

/-- The invariant of the block is those of its parts, and the form of its tables. -/
theorem inv_of_parts {s : State} (hcfg : Coherent s.cfg) (hmem : Memory.wf s.mem = true)
    (hfile : Cells.wf s.regs = true) (hrange : ∀ i : Nat, 0x4000 ≤ i → s.cell i = 0)
    (hp : ∀ p : BlockPart, p.Holds s) : Inv s where
  cfg := hcfg
  mem := hmem
  file := hfile
  regs := hp .widths
  range := hrange
  intc := hp .intc
  dma n := (hp (.chan n)).1
  tmu n := (hp (.timer n)).1
  refresh := (hp .refresh).1
  rtc := (hp .clock).1
  gpio := hp .pins
  time := onTime_iff.2 ⟨fun n => (hp (.chan n)).2, fun n => (hp (.timer n)).2, (hp .refresh).2, (hp .clock).2⟩

/-! ## An operation that does not touch a part keeps it -/

theorem anyRequesting_congr {i j : Intc} (h : i.requesting = j.requesting) : anyRequesting i = anyRequesting j := by
  unfold anyRequesting
  rw [h]

theorem prioExpected_congr {s t : State} (hcfg : t.cfg = s.cfg) (h : ∀ k, t.reg (.ipr k) = s.reg (.ipr k))
    (x : Source) : prioExpected t x = prioExpected s x := by
  unfold prioExpected
  rw [hcfg]
  cases s.cfg.srcEntry x with
  | fixed level sub => rfl
  | nibble r k => exact congrArg (fun v => Prio.mk 0 (iprNibble v k.val)) (h r)

theorem widthsKept_congr {f g : Reg → Word} (h : ∀ r ∈ BlockPart.widths.reads, g r = f r) :
    WidthsKept g ↔ WidthsKept f := by
  simp only [BlockPart.reads, List.forall_mem_cons, List.not_mem_nil, false_implies, implies_true, and_true] at h
  obtain ⟨h1, h2, h3, h4, h5, h6, h7, h8⟩ := h
  simp only [WidthsKept, List.forall_mem_cons, List.not_mem_nil, false_implies, implies_true, and_true,
    h1, h2, h3, h4, h5, h6, h7, h8]

theorem onTime_congr {s t : State} {d d' : Option Time} (hnow : t.now = s.now) (hd : d' = d) (h : OnTime s d) :
    OnTime t d' := by
  subst hd
  exact fun x hx => hnow ▸ h x hx

/-- The invariant of a TMU channel looks at its own bit of `TSTR` and at the prescaler of its control word. -/
theorem timer_congr {s t : State} {n : TmuChan} (hcfg : t.cfg = s.cfg) (hnow : t.now = s.now)
    (htimer : t.timer n = s.timer n) (htstr : tstrStr (t.reg .tstr) n = tstrStr (s.reg .tstr) n)
    (htcnt : t.reg (.tcnt n) = s.reg (.tcnt n))
    (htcr : tcrTpsc (t.reg (.tcr n)) = tcrTpsc (s.reg (.tcr n))) (h : BlockPart.Holds (.timer n) s) :
    BlockPart.Holds (.timer n) t := by
  obtain ⟨hinv, htime⟩ := h
  refine ⟨?_, onTime_congr hnow (by rw [htimer]) htime⟩
  unfold TmuInv tmuDivOf at hinv ⊢
  rwa [hcfg, hnow, htimer, htstr, htcnt, htcr]

/-- The invariant of the refresh timer looks at the clock select of its control word alone. -/
theorem refresh_congr {s t : State} (hcfg : t.cfg = s.cfg) (hnow : t.now = s.now) (hrefresh : t.refresh = s.refresh)
    (hrtcsr : rtcsrCks (t.reg .rtcsr) = rtcsrCks (s.reg .rtcsr)) (hrtcnt : t.reg .rtcnt = s.reg .rtcnt)
    (hrtcor : t.reg .rtcor = s.reg .rtcor) (h : BlockPart.Holds .refresh s) : BlockPart.Holds .refresh t := by
  obtain ⟨hinv, htime⟩ := h
  refine ⟨?_, onTime_congr hnow (by rw [hrefresh]) htime⟩
  unfold RefreshInv at hinv ⊢
  rwa [hcfg, hnow, hrefresh, hrtcsr, hrtcnt, hrtcor]

theorem holds_of_within {e : Effect} {s t : State} {p : BlockPart} (hw : Within e s t)
    (hp : ¬p.Touched s.cfg e) (h : p.Holds s) : p.Holds t := by
  obtain ⟨hnamed, hreads⟩ := not_or.1 hp
  have hreg : ∀ r ∈ p.reads, t.reg r = s.reg r := fun r hr => within_reg hw fun hc => hreads ⟨r, hr, hc⟩
  cases p with
  | widths => exact (widthsKept_congr hreg).2 h
  | intc =>
    obtain ⟨hreq, hprio⟩ := not_or.1 hnamed
    obtain ⟨hrequesting, hpending, -⟩ := hw.requests (Bool.not_eq_true _ ▸ hreq)
    refine ⟨?_, fun x => ?_⟩
    · rw [hpending, anyRequesting_congr hrequesting]
      exact h.1
    · rw [hw.prio (Bool.not_eq_true _ ▸ hprio),
        prioExpected_congr hw.cfg fun k => hreg _ (by revert k; decide)]
      exact h.2 x
  | chan n =>
    obtain ⟨hinv, htime⟩ := h
    have hchan := hw.chans n hnamed
    exact ⟨hchan ▸ hinv, onTime_congr hw.now (by rw [hchan]) htime⟩
  | timer n =>
    exact timer_congr hw.cfg hw.now (hw.timers n hnamed) (by rw [hreg .tstr (by simp [BlockPart.reads])])
      (hreg (.tcnt n) (by simp [BlockPart.reads])) (by rw [hreg (.tcr n) (by simp [BlockPart.reads])]) h
  | refresh =>
    exact refresh_congr hw.cfg hw.now (hw.refresh (Bool.not_eq_true _ ▸ hnamed)) (by rw [hreg .rtcsr (by decide)])
      (hreg .rtcnt (by decide)) (hreg .rtcor (by decide)) h
  | clock =>
    obtain ⟨hinv, htime⟩ := h
    have hrtc := hw.rtc (Bool.not_eq_true _ ▸ hnamed)
    refine ⟨?_, onTime_congr hw.now hrtc htime⟩
    rwa [hrtc, hreg .rcr2 (by decide)]
  | pins =>
    change GpioAgrees t.gpio (t.reg .pctra) (t.reg .pctrb)
    rw [hw.gpio (Bool.not_eq_true _ ▸ hnamed), hreg .pctra (by decide), hreg .pctrb (by decide)]
    exact h

/-- Of the parts, the interrupt controller's alone looks at the controller's state. -/
theorem holds_setIntc {p : BlockPart} (hp : p ≠ .intc) {s : State} (h : p.Holds s) (i : Intc) :
    p.Holds (s.setIntc i) := by
  cases p with
  | intc => exact absurd rfl hp
  | _ => exact h

theorem holds_requestSource {p : BlockPart} (hp : p ≠ .intc) {s : State} (h : p.Holds s) (x : Source) :
    p.Holds (requestSource x s) := by
  rw [requestSource_eq]
  exact holds_setIntc hp h _

theorem holds_unrequestSource {p : BlockPart} (hp : p ≠ .intc) {s : State} (h : p.Holds s) (x : Source) :
    p.Holds (unrequestSource x s) := by
  rw [unrequestSource_eq]
  exact holds_setIntc hp h _

/-- An operation that stays within its effect keeps the invariant, where it leaves the parts that the effect touches
in order. -/
theorem inv_of_within {e : Effect} {s t : State} (h : Inv s) (hw : Within e s t) (hcells : ∀ i ∈ e.cells, i < 0x4000)
    (hp : ∀ p : BlockPart, p.Touched s.cfg e → p.Holds t) : Inv t := by
  refine inv_of_parts (hw.cfg ▸ h.cfg) (hw.memWf h.mem) (hw.fileWf h.file) (fun i hi => ?_) fun p => ?_
  · rw [hw.cells i fun hmem => absurd (hcells i hmem) (by omega)]
    exact h.range i hi
  · by_cases ht : p.Touched s.cfg e
    · exact hp p ht
    · exact holds_of_within hw ht (h.part p)

theorem mem_map_index {cfg : Config} (hs : cfg.separate = true) {r : Reg} {l : List Reg} :
    cfg.index r ∈ l.map cfg.index ↔ r ∈ l := by
  simp [List.mem_map, index_inj hs]

theorem map_index_lt (cfg : Config) (l : List Reg) : ∀ i ∈ l.map cfg.index, i < 0x4000 := by
  rw [List.forall_mem_map]
  exact fun r _ => cfg.index_lt r

end Sys2Proof.Machine
end

section
/-! SUPPORT. What the operations of each unit leave of its part of the invariant (41_dmac R190; 42_timers R244, R254,
R265; 43_regfile R296, R301). -/
namespace Sys2Proof.Machine
open Sys2Proof

/-! ## DMA channels -/

/-- An idle channel without a deadline is in order. -/
theorem channelInv_of_idle {c : DmaChannel} (ha : c.active = false) (hd : c.deadline = none) : ChannelInv c := by
  simp [ChannelInv, ha, hd]

/-- A burst in flight with a deadline is in order. -/
theorem channelInv_of_burst {c : DmaChannel} (ha : c.active = true) (hk : c.kind = .burst)
    (hd : c.deadline.isSome = true) : ChannelInv c := by
  simp [ChannelInv, ha, hk, hd]

/-- A device transfer in flight is in order where its count and its parameters are. -/
theorem channelInv_of_device {c : DmaChannel} (ha : c.active = true) (hk : c.kind = .device)
    (h : (c.deadline.isSome = true ↔ c.devCount = 0) ∧ c.devCount ≤ 0x1000000 ∧
      c.devSize ∈ [1, 2, 4, 8, 32] ∧ c.devIncs ≠ .illegal ∧ c.devIncd ≠ .illegal ∧
      (c.devMode = 2 ∨ c.devMode = 3)) : ChannelInv c :=
  ⟨fun hidle => (nomatch ha.symm.trans hidle), fun _ hburst => (nomatch hk.symm.trans hburst), fun _ _ => h⟩

theorem channelInv_cancelled (c : DmaChannel) : ChannelInv c.cancelled := channelInv_of_idle rfl rfl

theorem chan_setChan {s : State} {n : Chan} {c : DmaChannel} (hc : ChannelInv c) (ht : OnTime s c.deadline) :
    BlockPart.Holds (.chan n) (s.setChan n c) := by
  refine ⟨?_, onTime_congr rfl (by rw [setChan_chan_same]) ht⟩
  rwa [setChan_chan_same]

theorem chan_cancelled (s : State) (n : Chan) : BlockPart.Holds (.chan n) (s.setChan n (s.chan n).cancelled) :=
  chan_setChan (channelInv_cancelled _) (onTime_none s)

theorem chan_transfer {n : Chan} {s t : State} (h : transfer n .burst s = .next t) (hn : BlockPart.Holds (.chan n) s) :
    BlockPart.Holds (.chan n) t := by
  rcases transfer_burst_next h with ⟨d, -, rfl⟩ | ⟨p, r, -, -, rfl⟩
  · exact hn
  · rw [writeBack_frame]
    exact chan_setChan (s := s) (channelInv_of_burst rfl rfl rfl) (onTime_now (Nat.le_add_right ..))

theorem chan_transferDevice {n : Chan} {s : State} (hrs : requestSelect s n ∈ [2, 3])
    (hn : BlockPart.Holds (.chan n) s) : BlockPart.Holds (.chan n) (transferDevice n s) := by
  unfold transferDevice
  split
  · exact hn
  · rename_i p hp
    obtain ⟨-, hincs, hincd, hsize, hpos, hle⟩ := dmaSetup_ok hp
    have howed : (none : Option Time).isSome = true ↔ p.count = 0 := by simp [Nat.ne_of_gt hpos]
    have hmode : ∀ m : BitVec 4, m.toNat ∈ [2, 3] → m = 2 ∨ m = 3 := by decide
    exact chan_setChan (s := s)
      (channelInv_of_device rfl rfl ⟨howed, hle, hsize, hincs, hincd, hmode _ hrs⟩) (onTime_none s)

/-- A start check leaves its channel in order (41_dmac R192). -/
theorem chan_checkChannel {n : Chan} {s t : State} (h : checkChannel n s = .next t)
    (hn : BlockPart.Holds (.chan n) s) : BlockPart.Holds (.chan n) t := by
  rcases check_cases s n with ⟨he, ha⟩ | ⟨he, ha⟩ | ⟨he, hheld⟩ | ⟨hready, hsel⟩ | ⟨hready, hsel⟩
  · rw [check_disabled_idle he ha] at h
    cases h
    exact hn
  · rw [check_disabled_active he ha] at h
    cases h
    exact chan_cancelled s n
  · rw [check_held he hheld] at h
    cases h
    exact hn
  · rw [check_burst hready hsel] at h
    exact chan_transfer h hn
  · rw [check_device hready hsel] at h
    cases h
    exact chan_transferDevice hsel hn

theorem chans_checkEach {ns : List Chan} {s t : State} (h : checkEach ns s = .next t)
    (hs : ∀ n, BlockPart.Holds (.chan n) s) : ∀ n, BlockPart.Holds (.chan n) t := by
  induction ns generalizing s with
  | nil =>
    cases h
    exact hs
  | cons m ns ih =>
    obtain ⟨u, hu, h⟩ := andThen_inv h
    refine ih h fun n => ?_
    by_cases hnm : n = m
    · subst hnm
      exact chan_checkChannel hu (hs n)
    · exact holds_of_within (within_check hu)
        (by simp [BlockPart.Touched, BlockPart.Named, BlockPart.reads, checkEffect, hnm]) (hs n)

theorem channelInv_pumpCounted {c : DmaChannel} (h : ChannelInv c) (ha : c.active = true) (hk : c.kind = .device)
    (now : Time) (len : Nat) : ChannelInv (pumpCounted now c len) := by
  obtain ⟨-, -, hdevice⟩ := h
  obtain ⟨howed, hle, hrest⟩ := hdevice ha hk
  refine channelInv_of_device ha hk ⟨?_, le_trans (Nat.sub_le ..) hle, hrest⟩
  unfold pumpCounted
  dsimp only
  split
  · simp [*]
  · rw [howed]
    omega

theorem onTime_pumpCounted {s : State} {c : DmaChannel} (h : OnTime s c.deadline) (len : Nat) :
    OnTime s (pumpCounted s.now c len).deadline := by
  unfold pumpCounted
  dsimp only
  split
  · exact onTime_now le_rfl
  · exact h

theorem chan_pump {n : Chan} {s t : State} (h : pump n s = .next t) (hn : BlockPart.Holds (.chan n) s) :
    BlockPart.Holds (.chan n) t := by
  unfold pump at h
  dsimp only at h
  split at h
  · cases h
    exact hn
  · rename_i hflight
    rw [not_or, Bool.not_eq_false, not_not] at hflight
    obtain ⟨hactive, hkind⟩ := hflight
    split at h
    · unfold pumpToDevice at h
      dsimp only at h
      split at h
      · cases h
      · cases h
        exact chan_setChan (s := s) (channelInv_pumpCounted hn.1 hactive hkind _ _) (onTime_pumpCounted hn.2 _)
    · unfold pumpToMemory at h
      dsimp only at h
      split at h
      · cases h
      · cases h
        exact chan_setChan (s := s) (channelInv_pumpCounted hn.1 hactive hkind _ _) (onTime_pumpCounted hn.2 _)

theorem chan_nmiCancel {s : State} {n : Chan} (hn : BlockPart.Holds (.chan n) s) (m : Chan) :
    BlockPart.Holds (.chan n) (nmiCancel s m) := by
  unfold nmiCancel
  split
  · by_cases hnm : n = m
    · subst hnm
      exact chan_cancelled s n
    · refine holds_of_within
        (within_emitDiag (within_setChan (within_self { chans := [m] } s) (List.mem_singleton_self m) _) _) ?_ hn
      simp [BlockPart.Touched, BlockPart.Named, BlockPart.reads, hnm]
  · exact hn

/-- `DMAC_NMI` leaves every channel in order (41_dmac R220). -/
theorem chan_dmacNmi {s : State} {n : Chan} (hn : BlockPart.Holds (.chan n) s) :
    BlockPart.Holds (.chan n) (dmacNmi s) := by
  have hall : ∀ (l : List Chan) (u : State), BlockPart.Holds (.chan n) u →
      BlockPart.Holds (.chan n) (l.foldl nmiCancel u) := by
    intro l
    induction l with
    | nil => exact fun _ hu => hu
    | cons m l ih => exact fun u hu => ih _ (chan_nmiCancel hu m)
  exact hall _ _ hn

theorem chan_dmaComplete (n : Chan) (s : State) : BlockPart.Holds (.chan n) (dmaComplete n s) := by
  unfold dmaComplete
  dsimp only
  have hdone : BlockPart.Holds (.chan n) (((s.setChan n (s.chan n).cancelled).setReg (.dmatcr n) 0).setReg (.chcr n)
      (putTe (((s.setChan n (s.chan n).cancelled).setReg (.dmatcr n) 0).reg (.chcr n)) true)) := chan_cancelled s n
  split
  · exact holds_requestSource (p := .chan n) nofun hdone _
  · exact hdone

/-! ## TMU channels -/

/-- Channel `n` and its two registers are in `t` as in `s`; `TSTR` may differ. -/
structure SameTimer (n : TmuChan) (s t : State) : Prop where
  cfg : t.cfg = s.cfg
  now : t.now = s.now
  timer : t.timer n = s.timer n
  tcnt : t.reg (.tcnt n) = s.reg (.tcnt n)
  tcr : t.reg (.tcr n) = s.reg (.tcr n)

/-- A started channel whose prescaler does not count has no deadline. -/
theorem timer_of_uncounted {n : TmuChan} {s : State} (hdiv : tmuDivOf s.cfg (s.reg (.tcr n)) = 0)
    (hd : (s.timer n).deadline = none) : BlockPart.Holds (.timer n) s := by
  refine ⟨?_, hd ▸ onTime_none s⟩
  unfold TmuInv
  rwa [if_neg fun h => h.2 hdiv]

/-- A started channel armed now has the deadline of its count. -/
theorem timer_of_armed {n : TmuChan} {s : State} (hstart : tstrStr (s.reg .tstr) n = true)
    (hdiv : tmuDivOf s.cfg (s.reg (.tcr n)) ≠ 0) (hat : (s.timer n).armedAt = s.now)
    (hd : (s.timer n).deadline =
      some (s.now + max (s.reg (.tcnt n)).toNat 1 * tmuPeriod s.cfg (s.reg (.tcr n)))) :
    BlockPart.Holds (.timer n) s := by
  refine ⟨?_, hd ▸ onTime_now (Nat.le_add_right ..)⟩
  unfold TmuInv
  rw [if_pos ⟨hstart, hdiv⟩, hat]
  exact ⟨le_rfl, hd⟩

/-- `TMU_ARM` leaves a started channel in order (42_timers R244). -/
theorem timer_tmuArm {n : TmuChan} {s : State} (hstart : tstrStr (s.reg .tstr) n = true) :
    BlockPart.Holds (.timer n) (tmuArm n s) := by
  unfold tmuArm
  split
  · exact timer_of_uncounted ‹_› (by rw [setTimer_timer_same])
  · exact timer_of_armed hstart ‹_› (by rw [setTimer_timer_same]; rfl) (by rw [setTimer_timer_same]; rfl)

/-- A channel that is not started and has no deadline is in order. -/
theorem timer_of_stopped {n : TmuChan} {s : State} (hstop : tstrStr (s.reg .tstr) n = false)
    (hd : (s.timer n).deadline = none) : BlockPart.Holds (.timer n) s := by
  refine ⟨?_, hd ▸ onTime_none s⟩
  unfold TmuInv
  rwa [if_neg (by simp [hstop])]

theorem deadline_of_stopped {n : TmuChan} {s : State} (hstop : tstrStr (s.reg .tstr) n = false)
    (h : BlockPart.Holds (.timer n) s) : (s.timer n).deadline = none := by
  have hinv : TmuInv s n := h.1
  unfold TmuInv at hinv
  rwa [if_neg (by simp [hstop])] at hinv

theorem started_of_deadline {n : TmuChan} {s : State} {d : Time} (hd : (s.timer n).deadline = some d)
    (h : BlockPart.Holds (.timer n) s) : tstrStr (s.reg .tstr) n = true := by
  by_contra hstop
  rw [deadline_of_stopped (Bool.not_eq_true _ ▸ hstop) h] at hd
  cases hd

/-- The rule of `TSTR` for a channel, on a state that holds the new word, the channel being as it was before the
write (42_timers R246). -/
theorem timer_tstrChannel {n : TmuChan} {s u : State} (h : BlockPart.Holds (.timer n) s)
    (hold : SameTimer n s u) (hs : u.cfg.separate = true) :
    BlockPart.Holds (.timer n) (tstrChannel (s.reg .tstr) u n) := by
  unfold tstrChannel
  dsimp only
  cases hbefore : tstrStr (s.reg .tstr) n <;> cases hafter : tstrStr (u.reg .tstr) n
  · exact timer_of_stopped hafter (hold.timer ▸ deadline_of_stopped hbefore h)
  · exact timer_tmuArm hafter
  · change BlockPart.Holds (.timer n)
      ((u.setReg (.tcnt n) (tmuLive n u)).setTimer n { u.timer n with deadline := none })
    refine timer_of_stopped ?_ (by rw [setTimer_timer_same])
    rw [setTimer_reg, setReg_reg hs, if_neg (by simp)]
    exact hafter
  · change BlockPart.Holds (.timer n) u
    exact timer_congr hold.cfg hold.now hold.timer (hafter.trans hbefore.symm) hold.tcnt (by rw [hold.tcr]) h

/-- What the rule of `TSTR` for one channel may write. -/
def tstrEffect (cfg : Config) (n : TmuChan) : Effect := { cells := [cfg.index (.tcnt n)], timers := [n] }

theorem within_tstrStep (old : Word) (u : State) (n : TmuChan) :
    Within (tstrEffect u.cfg n) u (tstrChannel old u n) :=
  within_tstrChannel (within_self _ u) (List.mem_singleton_self n) (List.mem_singleton_self _) old

theorem SameTimer.of_within {n : TmuChan} {e : Effect} {s t u : State} (h : SameTimer n s t) (hw : Within e t u)
    (hn : n ∉ e.timers) (htcnt : t.cfg.index (.tcnt n) ∉ e.cells) (htcr : t.cfg.index (.tcr n) ∉ e.cells) :
    SameTimer n s u where
  cfg := hw.cfg.trans h.cfg
  now := hw.now.trans h.now
  timer := (hw.timers n hn).trans h.timer
  tcnt := (within_reg hw htcnt).trans h.tcnt
  tcr := (within_reg hw htcr).trans h.tcr

/-- The handler of `TSTR`, channel by channel: those it has come to are in order, the others as they were. -/
theorem timers_tstrChannels {s : State} (h : ∀ n, BlockPart.Holds (.timer n) s) (hs : s.cfg.separate = true)
    {l : List TmuChan} (hl : l.Nodup) {u : State} (hcfg : u.cfg = s.cfg) (hsame : ∀ n ∈ l, SameTimer n s u)
    (hdone : ∀ n ∉ l, BlockPart.Holds (.timer n) u) :
    ∀ n, BlockPart.Holds (.timer n) (l.foldl (tstrChannel (s.reg .tstr)) u) := by
  induction l generalizing u with
  | nil => exact fun n => hdone n List.not_mem_nil
  | cons m l ih =>
    obtain ⟨hm, hl⟩ := List.nodup_cons.1 hl
    have hsep : u.cfg.separate = true := hcfg ▸ hs
    have hw := within_tstrStep (s.reg .tstr) u m
    refine ih hl (hw.cfg.trans hcfg) (fun n hn => ?_) fun n hn => ?_
    · have hne : n ≠ m := fun e => hm (e ▸ hn)
      exact (hsame n (List.mem_cons_of_mem _ hn)).of_within hw (by simp [tstrEffect, hne])
        (by simp [tstrEffect, index_inj hsep, hne]) (by simp [tstrEffect, index_inj hsep])
    · by_cases hne : n = m
      · subst hne
        exact timer_tstrChannel (h n) (hsame n List.mem_cons_self) hsep
      · refine holds_of_within hw ?_ (hdone n (by simp [hne, hn]))
        simp [BlockPart.Touched, BlockPart.Named, BlockPart.reads, tstrEffect, index_inj hsep, hne, Ne.symm hne]

theorem timer_tstrWritten {s : State} (h : ∀ n, BlockPart.Holds (.timer n) s) (hs : s.cfg.separate = true) (v : Word)
    (n : TmuChan) : BlockPart.Holds (.timer n) (tstrWritten s (s.setReg .tstr v)) := by
  refine timers_tstrChannels h hs (by decide) (setReg_cfg ..) (fun n _ => ?_) (fun n hn => ?_) n
  · exact ⟨rfl, rfl, rfl, by simp [setReg_reg hs], by simp [setReg_reg hs]⟩
  · exact absurd (by revert n; decide) hn

theorem timer_tcntWritten {s : State} {n : TmuChan} (h : BlockPart.Holds (.timer n) s) (hs : s.cfg.separate = true)
    (v : Word) : BlockPart.Holds (.timer n) (tcntWritten n (s.setReg (.tcnt n) v)) := by
  have htstr : (s.setReg (.tcnt n) v).reg .tstr = s.reg .tstr := by simp [setReg_reg hs]
  unfold tcntWritten
  split
  · exact timer_tmuArm ‹_›
  · rename_i hstop
    rw [Bool.not_eq_true] at hstop
    exact timer_of_stopped hstop (deadline_of_stopped (s := s) (by rwa [htstr] at hstop) h)

theorem timer_tcrWritten {s : State} {n : TmuChan} (h : BlockPart.Holds (.timer n) s) (hs : s.cfg.separate = true)
    (v : Word) : BlockPart.Holds (.timer n) (tcrWritten n s (s.setReg (.tcr n) v)) := by
  have htstr : (s.setReg (.tcr n) v).reg .tstr = s.reg .tstr := by simp [setReg_reg hs]
  have harmed : BlockPart.Holds (.timer n) (if tstrStr ((s.setReg (.tcr n) v).reg .tstr) n then
      tmuArm n (if (s.timer n).deadline.isSome then (s.setReg (.tcr n) v).setReg (.tcnt n) (tmuLive n s)
        else s.setReg (.tcr n) v) else s.setReg (.tcr n) v) := by
    split
    · rename_i hstart
      refine timer_tmuArm ?_
      split
      · rwa [setReg_reg (s := s.setReg (.tcr n) v) hs, if_neg (by simp)]
      · exact hstart
    · rename_i hstop
      rw [Bool.not_eq_true] at hstop
      exact timer_of_stopped hstop (deadline_of_stopped (s := s) (by rwa [htstr] at hstop) h)
  unfold tcrWritten
  dsimp only
  generalize (if tstrStr ((s.setReg (.tcr n) v).reg .tstr) n then
      tmuArm n (if (s.timer n).deadline.isSome then (s.setReg (.tcr n) v).setReg (.tcnt n) (tmuLive n s)
        else s.setReg (.tcr n) v) else s.setReg (.tcr n) v) = s1 at harmed ⊢
  split
  · exact holds_unrequestSource (p := .timer n) nofun harmed _
  · exact harmed

/-- A flag above a field is none of its bits. -/
theorem field_putBit {v : Word} {i : Fin 32} {lo n : Nat} (h : i.val < lo ∨ lo + n ≤ i.val) (b : Bool) :
    field (putBit v i b) lo n = field v lo n := by
  apply BitVec.eq_of_getLsbD_eq
  intro j hj
  have hbit := bit_putBit v i b (lo + j)
  rw [if_neg (by omega)] at hbit
  unfold field
  rw [BitVec.getLsbD_extractLsb', BitVec.getLsbD_extractLsb']
  exact congrArg _ hbit

@[simp] theorem tmuArm_cfg (n : TmuChan) (s : State) : (tmuArm n s).cfg = s.cfg := by rw [tmuArm_eq]; rfl

theorem timer_tmuExpire {s : State} {n : TmuChan} (hs : s.cfg.separate = true)
    (hstart : tstrStr (s.reg .tstr) n = true) : BlockPart.Holds (.timer n) (tmuExpire n s) := by
  unfold tmuExpire
  dsimp only
  have harmed : BlockPart.Holds (.timer n) (tmuArm n (s.setReg (.tcnt n) (s.reg (.tcor n)))) :=
    timer_tmuArm (by rwa [setReg_reg hs, if_neg (by simp)])
  have hsep : (tmuArm n (s.setReg (.tcnt n) (s.reg (.tcor n)))).cfg.separate = true := by rw [tmuArm_cfg]; exact hs
  generalize tmuArm n (s.setReg (.tcnt n) (s.reg (.tcor n))) = s1 at harmed hsep ⊢
  have hflag : BlockPart.Holds (.timer n) (s1.setReg (.tcr n) (putUnf (s1.reg (.tcr n)) true)) := by
    refine timer_congr (s := s1) rfl rfl rfl ?_ ?_ ?_ harmed
    · rw [setReg_reg hsep, if_neg (by simp)]
    · rw [setReg_reg hsep, if_neg (by simp)]
    · rw [setReg_reg_same]
      exact field_putBit (i := 8) (by decide) true
  split
  · exact holds_requestSource (p := .timer n) nofun hflag _
  · exact hflag

/-! ## The refresh timer -/

/-- An active refresh timer armed now is in order (42_timers R254). -/
theorem refresh_refArm {s : State} (h : refActive s = true) : BlockPart.Holds .refresh (refArm s) := by
  have hcks : rtcsrCks ((refArm s).reg .rtcsr) ≠ 0 := of_decide_eq_true h
  refine ⟨?_, onTime_now (Nat.le_add_right ..)⟩
  unfold RefreshInv
  rw [if_pos hcks]
  exact ⟨le_rfl, rfl, rfl⟩

theorem refresh_of_inactive {s : State} (h : refActive s = false) (hd : s.refresh.deadline = none) :
    BlockPart.Holds .refresh s := by
  refine ⟨?_, hd ▸ onTime_none s⟩
  unfold RefreshInv
  rwa [if_neg (of_decide_eq_false h)]

theorem refDeadline_of_inactive {s : State} (hidle : refActive s = false) (h : BlockPart.Holds .refresh s) :
    s.refresh.deadline = none := by
  have hinv : RefreshInv s := h.1
  unfold RefreshInv at hinv
  rwa [if_neg (of_decide_eq_false hidle)] at hinv

theorem refActive_of_deadline {s : State} {d : Time} (hd : s.refresh.deadline = some d)
    (h : BlockPart.Holds .refresh s) : refActive s = true := by
  by_contra hidle
  rw [refDeadline_of_inactive (Bool.not_eq_true _ ▸ hidle) h] at hd
  cases hd

theorem refresh_rtcsrWritten (old new : State) : BlockPart.Holds .refresh (rtcsrWritten old new) := by
  unfold rtcsrWritten
  dsimp only
  generalize (if refActive old then
      (new.setReg .rtcsr (new.reg .rtcsr &&& 0xFF)).setReg .rtcnt (refLive old)
      else new.setReg .rtcsr (new.reg .rtcsr &&& 0xFF)) = s2
  split
  · exact refresh_refArm ‹_›
  · rename_i hidle
    exact refresh_of_inactive (Bool.not_eq_true _ ▸ hidle) rfl

theorem refActive_congr {s t : State} (h : t.reg .rtcsr = s.reg .rtcsr) : refActive t = refActive s := by
  unfold refActive
  rw [h]

theorem refresh_rtcntWritten {s : State} (h : BlockPart.Holds .refresh s) (hs : s.cfg.separate = true) (v : Word) :
    BlockPart.Holds .refresh (rtcntWritten (s.setReg .rtcnt v)) := by
  unfold rtcntWritten
  dsimp only
  rw [setReg_setReg]
  generalize ((s.setReg .rtcnt v).reg .rtcnt &&& 0xFF) = v'
  have hactive : refActive (s.setReg .rtcnt v') = refActive s := refActive_congr (by simp [setReg_reg hs])
  split
  · exact refresh_refArm ‹_›
  · rename_i hidle
    rw [Bool.not_eq_true] at hidle
    exact refresh_of_inactive hidle (refDeadline_of_inactive (s := s) (by rwa [hactive] at hidle) h)

theorem refresh_rtcorWritten {s : State} (h : BlockPart.Holds .refresh s) (hs : s.cfg.separate = true) (v : Word) :
    BlockPart.Holds .refresh (rtcorWritten (s.setReg .rtcor v)) := by
  unfold rtcorWritten
  dsimp only
  rw [setReg_setReg]
  generalize ((s.setReg .rtcor v).reg .rtcor &&& 0xFF) = v'
  have hactive : refActive (s.setReg .rtcor v') = refActive s := refActive_congr (by simp [setReg_reg hs])
  split
  · rename_i hrun
    refine refresh_refArm ?_
    rwa [refActive_congr (s := s.setReg .rtcor v')
      (by rw [setReg_reg (s := s.setReg .rtcor v') hs, if_neg (by decide)])]
  · rename_i hidle
    rw [Bool.not_eq_true] at hidle
    exact refresh_of_inactive hidle (refDeadline_of_inactive (s := s) (by rwa [hactive] at hidle) h)

/-- A write of `RTCSR` that keeps the clock select keeps the refresh timer in order. -/
theorem refresh_setReg_rtcsr {s : State} (hs : s.cfg.separate = true) {v : Word}
    (hv : rtcsrCks v = rtcsrCks (s.reg .rtcsr)) (h : BlockPart.Holds .refresh s) :
    BlockPart.Holds .refresh (s.setReg .rtcsr v) := by
  refine refresh_congr (s := s) rfl rfl rfl ?_ ?_ ?_ h
  · rwa [setReg_reg_same]
  · rw [setReg_reg hs, if_neg (by decide)]
  · rw [setReg_reg hs, if_neg (by decide)]

theorem refresh_setReg {s : State} (hs : s.cfg.separate = true) {r : Reg} (hr : r ∉ BlockPart.refresh.reads) {v : Word}
    (h : BlockPart.Holds .refresh s) : BlockPart.Holds .refresh (s.setReg r v) := by
  refine holds_of_within (within_setReg (within_self { cells := [s.cfg.index r] } s) (List.mem_singleton_self _) v) ?_ h
  rintro (hnamed | ⟨q, hq, hmem⟩)
  · cases hnamed
  · exact hr ((index_inj hs).1 (List.mem_singleton.1 hmem) ▸ hq)

theorem refresh_refCount {s : State} (hs : s.cfg.separate = true) (h : BlockPart.Holds .refresh s) :
    BlockPart.Holds .refresh (refCount s) := by
  unfold refCount
  split
  · dsimp only
    have hcounted := refresh_setReg hs (r := .rfcr) (by decide)
      (v := BitVec.ofNat 32 (((s.reg .rfcr).toNat + 1) % 1024)) h
    generalize hs1 : s.setReg .rfcr (BitVec.ofNat 32 (((s.reg .rfcr).toNat + 1) % 1024)) = s1 at hcounted ⊢
    have hsep : s1.cfg.separate = true := by rw [← hs1]; exact hs
    split
    · exact refresh_setReg_rtcsr (s := s1.setReg .rfcr 0) hsep (field_putBit (i := 2) (by decide) true)
        (refresh_setReg hsep (by decide) hcounted)
    · exact hcounted
  · exact h

theorem refresh_refExpire {s : State} (hs : s.cfg.separate = true) (h : refActive s = true) :
    BlockPart.Holds .refresh (refExpire s) := by
  have harmed : BlockPart.Holds .refresh (refArm (s.setReg .rtcnt 0)) :=
    refresh_refArm (by rwa [refActive_congr (s := s) (by rw [setReg_reg hs, if_neg (by decide)])])
  have hsep : (refArm (s.setReg .rtcnt 0)).cfg.separate = true := hs
  unfold refExpire
  dsimp only
  generalize refArm (s.setReg .rtcnt 0) = s1 at harmed hsep ⊢
  exact refresh_refCount (s := s1.setReg .rtcsr (putCmf (s1.reg .rtcsr) true)) hsep
    (refresh_setReg_rtcsr hsep (field_putBit (i := 7) (by decide) true) harmed)

end Sys2Proof.Machine
end

section
/-! SUPPORT. The clock, the pins, the widths of the registers and the interrupt controller: what their operations
leave of the invariant (10_state R43, R45; 42_timers R265, R266; 43_regfile R296, R301). -/
namespace Sys2Proof.Machine
open Sys2Proof

/-! ## The real-time clock -/

/-- Start and stop of the clock: running on, it keeps a deadline that it had (42_timers R265). -/
theorem clock_startStop {old : Word} {s : State}
    (h : rcr2Start old = true → s.rtcDeadline.isSome = true ∧ OnTime s s.rtcDeadline) :
    BlockPart.Holds .clock (rcr2StartStop old s) := by
  unfold rcr2StartStop
  split
  · rename_i hstart
    split
    · rename_i hbefore
      obtain ⟨hsome, htime⟩ := h hbefore
      exact ⟨hsome.trans hstart.symm, htime⟩
    · exact ⟨hstart.symm, onTime_now (Nat.le_add_right ..)⟩
  · rename_i hstop
    exact ⟨(Bool.not_eq_true _ ▸ hstop).symm, onTime_none _⟩

/-- The write-1 actions of `RCR2` touch the register file alone. -/
theorem rcr2Actions_frame {s : State} (hs : s.cfg.separate = true) :
    rcr2AdjAction (rcr2ResetAction s) = { s with regs := (rcr2AdjAction (rcr2ResetAction s)).regs } := by
  obtain ⟨hreset, -⟩ := rcr2ResetAction_spec hs
  have hsep : (rcr2ResetAction s).cfg.separate = true := by rw [hreset]; exact hs
  obtain ⟨hadj, -⟩ := rcr2AdjAction_spec hsep
  generalize (rcr2AdjAction (rcr2ResetAction s)).regs = l at hadj ⊢
  rw [hadj, hreset]

theorem clock_rcr2Written {s : State} (h : BlockPart.Holds .clock s) (hs : s.cfg.separate = true) (v : Word) :
    BlockPart.Holds .clock (rcr2Written s (s.setReg .rcr2 v)) := by
  unfold rcr2Written
  rw [setReg_setReg]
  refine clock_startStop fun hstart => ?_
  rw [rcr2Actions_frame (s := s.setReg .rcr2 _) hs]
  exact ⟨h.1.trans hstart, h.2⟩

theorem rtcExpire_rtcDeadline (s : State) :
    (rtcExpire s).rtcDeadline = s.rtcDeadline.map (· + s.cfg.cycPerRtcTick) := by
  have hkept : KeptByCalendar fun u => u.rtcDeadline = s.rtcDeadline.map (· + s.cfg.cycPerRtcTick) :=
    fun _ _ _ _ hu => hu
  unfold rtcExpire
  dsimp only
  split
  · exact keeps_incSecond hkept rfl
  · rfl

theorem clock_rtcExpire {s : State} (h : BlockPart.Holds .clock s) (hs : s.cfg.separate = true) :
    BlockPart.Holds .clock (rtcExpire s) := by
  obtain ⟨hinv, htime⟩ := h
  have hw : Within (expiryEffect s.cfg .rtc) s (rtcExpire s) := within_expire .rtc s
  have hrcr2 : (rtcExpire s).reg .rcr2 = s.reg .rcr2 := by
    refine within_reg hw ?_
    rw [expiryEffect, mem_map_index hs]
    decide
  refine ⟨?_, ?_⟩
  · rw [rtcExpire_rtcDeadline, Option.isSome_map, hrcr2, hinv]
  · rw [rtcExpire_rtcDeadline]
    intro d hd
    obtain ⟨d0, hd0, rfl⟩ := Option.map_eq_some_iff.1 hd
    rw [hw.now]
    exact le_trans (htime d0 hd0) (Nat.le_add_right ..)

/-! ## The pins -/

theorem pins_gpioPush16 {s : State} (h : BlockPart.Holds .pins s) : BlockPart.Holds .pins (gpioPush16 s) := by
  unfold gpioPush16
  split <;> exact h

theorem pins_gpioPush4 {s : State} (h : BlockPart.Holds .pins s) : BlockPart.Holds .pins (gpioPush4 s) := by
  unfold gpioPush4
  split <;> exact h

theorem pins_pctraWritten {s : State} (h : BlockPart.Holds .pins s) (hs : s.cfg.separate = true) (v : Word) :
    BlockPart.Holds .pins (pctraWritten (s.setReg .pctra v)) := by
  obtain ⟨-, h4⟩ := h
  have hpctrb : (s.setReg .pctra v).reg .pctrb = s.reg .pctrb := by rw [setReg_reg hs, if_neg (by decide)]
  rw [← hpctrb] at h4
  exact pins_gpioPush16 ⟨fun a => ⟨gpioDir_getLsbD 16 _ a.isLt, gpioPup_getLsbD 16 _ a.isLt⟩, h4⟩

theorem pins_pctrbWritten {s : State} (h : BlockPart.Holds .pins s) (hs : s.cfg.separate = true) (v : Word) :
    BlockPart.Holds .pins (pctrbWritten (s.setReg .pctrb v)) := by
  obtain ⟨h16, -⟩ := h
  have hpctra : (s.setReg .pctrb v).reg .pctra = s.reg .pctra := by rw [setReg_reg hs, if_neg (by decide)]
  rw [← hpctra] at h16
  exact pins_gpioPush4 ⟨h16, fun a => ⟨gpioDir_getLsbD 4 _ a.isLt, gpioPup_getLsbD 4 _ a.isLt⟩⟩

/-! ## The widths of the registers -/

/-- What the invariant says of the value of one register. -/
def WidthKept (r : Reg) (v : Word) : Prop :=
  match r with
  | .rtcsr | .rtcnt | .rtcor | .rcr2 => v.toNat < 2 ^ 8
  | .rfcr => v.toNat < 2 ^ 10
  | .pvr | .prr | .rsvz => v = 0
  | _ => True

theorem widthsKept_iff {value : Reg → Word} : WidthsKept value ↔ ∀ r, WidthKept r (value r) := by
  constructor
  · rintro ⟨hbyte, hrfcr, hzero⟩ r
    cases r with
    | rtcsr | rtcnt | rtcor | rcr2 => exact hbyte _ (by decide)
    | rfcr => exact hrfcr
    | pvr | prr | rsvz => exact hzero _ (by decide)
    | _ => trivial
  · intro h
    refine ⟨?_, h .rfcr, ?_⟩
    · simp only [List.forall_mem_cons]
      exact ⟨h .rtcsr, h .rtcnt, h .rtcor, h .rcr2, by simp⟩
    · simp only [List.forall_mem_cons]
      exact ⟨h .pvr, h .prr, h .rsvz, by simp⟩

theorem widths_setReg {s : State} (hs : s.cfg.separate = true) (h : BlockPart.Holds .widths s) {r : Reg} {v : Word}
    (hv : WidthKept r v) : BlockPart.Holds .widths (s.setReg r v) := by
  refine widthsKept_iff.2 fun q => ?_
  rw [setReg_reg hs]
  split
  · rename_i hq
    exact hq ▸ hv
  · exact widthsKept_iff.1 h q

theorem toNat_and_lt {m : Word} {n : Nat} (hm : m.toNat < 2 ^ n) (v : Word) : (v &&& m).toNat < 2 ^ n := by
  rw [BitVec.toNat_and]
  exact Nat.and_lt_two_pow _ hm

theorem toNat_ofNat_mod_lt {m : Nat} (hm : 0 < m) (x : Nat) : (BitVec.ofNat 32 (x % m)).toNat < m := by
  rw [BitVec.toNat_ofNat]
  exact lt_of_le_of_lt (Nat.mod_le ..) (Nat.mod_lt x hm)

theorem toNat_putBit_lt {v : Word} {i n : Nat} (hv : v.toNat < 2 ^ n) (hi : i < n) (b : Bool) :
    (putBit v i b).toNat < 2 ^ n := by
  unfold putBit
  split
  · rw [BitVec.toNat_or]
    refine Nat.or_lt_two_pow hv ?_
    have hpow : 2 ^ i < 2 ^ n := Nat.pow_lt_pow_right (by decide) hi
    exact lt_of_le_of_lt (by simpa [Nat.shiftLeft_eq] using Nat.mod_le ..) hpow
  · rw [BitVec.toNat_and]
    exact lt_of_le_of_lt Nat.and_le_left hv

section
variable {s : State} (hs : s.cfg.separate = true) (h : BlockPart.Holds .widths s)
include hs h

theorem widths_rtcsrWritten (v : Word) : BlockPart.Holds .widths (rtcsrWritten s (s.setReg .rtcsr v)) := by
  unfold rtcsrWritten
  dsimp only
  rw [setReg_setReg]
  have hmasked := widths_setReg hs h (r := .rtcsr) (v := (s.setReg .rtcsr v).reg .rtcsr &&& 0xFF)
    (toNat_and_lt (by decide) _)
  generalize hs1 : s.setReg .rtcsr ((s.setReg .rtcsr v).reg .rtcsr &&& 0xFF) = s1 at hmasked ⊢
  have hcounted : BlockPart.Holds .widths (if refActive s then s1.setReg .rtcnt (refLive s) else s1) := by
    split
    · exact widths_setReg (by rw [← hs1]; exact hs) hmasked (toNat_ofNat_mod_lt (by decide) _)
    · exact hmasked
  generalize (if refActive s then s1.setReg .rtcnt (refLive s) else s1) = s2 at hcounted ⊢
  split <;> exact hcounted

theorem widths_rtcntWritten (v : Word) : BlockPart.Holds .widths (rtcntWritten (s.setReg .rtcnt v)) := by
  unfold rtcntWritten
  dsimp only
  rw [setReg_setReg]
  have hmasked := widths_setReg hs h (r := .rtcnt) (v := (s.setReg .rtcnt v).reg .rtcnt &&& 0xFF)
    (toNat_and_lt (by decide) _)
  split <;> exact hmasked

theorem widths_rtcorWritten (v : Word) : BlockPart.Holds .widths (rtcorWritten (s.setReg .rtcor v)) := by
  unfold rtcorWritten
  dsimp only
  rw [setReg_setReg]
  have hmasked := widths_setReg hs h (r := .rtcor) (v := (s.setReg .rtcor v).reg .rtcor &&& 0xFF)
    (toNat_and_lt (by decide) _)
  split
  · exact widths_setReg (s := s.setReg .rtcor _) hs hmasked (toNat_ofNat_mod_lt (by decide) _)
  · exact hmasked

theorem widths_rfcrWritten (v : Word) : BlockPart.Holds .widths (rfcrWritten (s.setReg .rfcr v)) := by
  unfold rfcrWritten
  rw [setReg_setReg]
  exact widths_setReg hs h (toNat_and_lt (by decide) _)

theorem widths_rcr2ResetAction : BlockPart.Holds .widths (rcr2ResetAction s) := by
  unfold rcr2ResetAction
  split
  · have hcleared := widths_setReg hs h (r := .r64cnt) (v := 0) trivial
    exact widths_setReg (s := s.setReg .r64cnt 0) hs hcleared
      (toNat_putBit_lt (widthsKept_iff.1 hcleared .rcr2) (by decide) false)
  · exact h

theorem widths_rcr2AdjAction : BlockPart.Holds .widths (rcr2AdjAction s) := by
  have hkept : KeptByCalendar fun u => u.cfg.separate = true ∧ BlockPart.Holds .widths u := by
    rintro r hr v u ⟨hsep, hu⟩
    refine ⟨hsep, widths_setReg hsep hu ?_⟩
    simp only [calendarRegs, List.mem_cons, List.not_mem_nil, or_false] at hr
    rcases hr with rfl | rfl | rfl | rfl | rfl | rfl | rfl <;> trivial
  unfold rcr2AdjAction
  split
  · dsimp only
    have hcleared := widths_setReg hs h (r := .r64cnt) (v := 0) trivial
    have hminute : (fun u => u.cfg.separate = true ∧ BlockPart.Holds .widths u)
        (if 30 ≤ bcdValue ((s.setReg .r64cnt 0).reg .rseccnt) then incMinute (s.setReg .r64cnt 0)
          else s.setReg .r64cnt 0) := by
      split
      · exact keeps_incMinute hkept ⟨hs, hcleared⟩
      · exact ⟨hs, hcleared⟩
    generalize (if 30 ≤ bcdValue ((s.setReg .r64cnt 0).reg .rseccnt) then incMinute (s.setReg .r64cnt 0)
      else s.setReg .r64cnt 0) = s2 at hminute ⊢
    obtain ⟨hsep, hw⟩ := hkept .rseccnt (by decide) 0 s2 hminute
    exact widths_setReg hsep hw (toNat_putBit_lt (widthsKept_iff.1 hw .rcr2) (by decide) false)
  · exact h

theorem widths_rcr2Written (v : Word) : BlockPart.Holds .widths (rcr2Written s (s.setReg .rcr2 v)) := by
  unfold rcr2Written
  rw [setReg_setReg]
  have hmasked := widths_setReg hs h (r := .rcr2) (v := (s.setReg .rcr2 v).reg .rcr2 &&& 0xFF)
    (toNat_and_lt (by decide) _)
  have hreset := widths_rcr2ResetAction (s := s.setReg .rcr2 _) hs hmasked
  have hsep : (rcr2ResetAction (s.setReg .rcr2 ((s.setReg .rcr2 v).reg .rcr2 &&& 0xFF))).cfg.separate = true := by
    rw [(rcr2ResetAction_spec (s := s.setReg .rcr2 _) hs).1]
    exact hs
  have hadj := widths_rcr2AdjAction hsep hreset
  unfold rcr2StartStop
  split
  · split <;> exact hadj
  · exact hadj

theorem widths_refCount : BlockPart.Holds .widths (refCount s) := by
  unfold refCount
  split
  · dsimp only
    have hcounted := widths_setReg hs h (r := .rfcr)
      (v := BitVec.ofNat 32 (((s.reg .rfcr).toNat + 1) % 1024)) (toNat_ofNat_mod_lt (by decide) _)
    generalize hs1 : s.setReg .rfcr (BitVec.ofNat 32 (((s.reg .rfcr).toNat + 1) % 1024)) = s1 at hcounted ⊢
    have hsep : s1.cfg.separate = true := by rw [← hs1]; exact hs
    split
    · have hzero := widths_setReg hsep hcounted (r := .rfcr) (v := 0) (by simp [WidthKept])
      exact widths_setReg (s := s1.setReg .rfcr 0) hsep hzero
        (toNat_putBit_lt (widthsKept_iff.1 hzero .rtcsr) (by decide) true)
    · exact hcounted
  · exact h

theorem widths_refExpire : BlockPart.Holds .widths (refExpire s) := by
  have harmed : BlockPart.Holds .widths (refArm (s.setReg .rtcnt 0)) :=
    widths_setReg hs h (r := .rtcnt) (v := 0) (by simp [WidthKept])
  have hsep : (refArm (s.setReg .rtcnt 0)).cfg.separate = true := hs
  unfold refExpire
  dsimp only
  generalize refArm (s.setReg .rtcnt 0) = s1 at harmed hsep ⊢
  exact widths_refCount (s := s1.setReg .rtcsr (putCmf (s1.reg .rtcsr) true)) hsep
    (widths_setReg hsep harmed (toNat_putBit_lt (widthsKept_iff.1 harmed .rtcsr) (by decide) true))

end

/-! ## The interrupt controller -/

/-- The pending flag is fresh (10_state R43). -/
def PendingFresh (s : State) : Prop := s.intc.pending = anyRequesting s.intc

theorem intc_of_within {e : Effect} {s t : State} (h : BlockPart.Holds .intc s) (hw : Within e s t)
    (hprio : e.prio = false) (hcells : ∀ k, s.cfg.index (.ipr k) ∉ e.cells) (hp : PendingFresh t) :
    BlockPart.Holds .intc t := by
  refine ⟨hp, fun x => ?_⟩
  rw [hw.prio hprio, prioExpected_congr hw.cfg fun k => within_reg hw (hcells k)]
  exact h.2 x

theorem recompute_cfg (s : State) : (recompute s).cfg = s.cfg := rfl

theorem recompute_intc (s : State) : (recompute s).intc = { s.intc with test := testFn s } := rfl

section
variable (k : Fin 4) (s : State)

theorem priorityWritten_cfg : (priorityWritten k s).cfg = s.cfg := by
  rw [priorityWritten, recompute_cfg, setIntc_cfg]

theorem priorityWritten_reg (r : Reg) : (priorityWritten k s).reg r = s.reg r := by
  rw [priorityWritten, recompute_reg, setIntc_reg]

theorem priorityWritten_requesting : (priorityWritten k s).intc.requesting = s.intc.requesting := by
  rw [priorityWritten, recompute_intc, setIntc_intc]

theorem priorityWritten_pending : (priorityWritten k s).intc.pending = s.intc.pending := by
  rw [priorityWritten, recompute_intc, setIntc_intc]

theorem priorityWritten_prio :
    (priorityWritten k s).intc.prio = prioWritten s.cfg k (s.reg (.ipr k)) s.intc.prio := by
  rw [priorityWritten, recompute_intc, setIntc_intc]

end

theorem intc_priorityWritten {s : State} (h : BlockPart.Holds .intc s) (hs : s.cfg.separate = true) (k : Fin 4)
    (v : Word) : BlockPart.Holds .intc (priorityWritten k (s.setReg (.ipr k) v)) := by
  obtain ⟨hpending, hprio⟩ := h
  refine ⟨?_, fun x => ?_⟩
  · rw [priorityWritten_pending, anyRequesting_congr (priorityWritten_requesting ..)]
    exact hpending
  · have hx := hprio x
    rw [priorityWritten_prio, setReg_reg_same, prioWritten_get]
    unfold prioExpected at hx ⊢
    rw [priorityWritten_cfg, setReg_cfg, setReg_intc]
    cases hrow : s.cfg.srcEntry x with
    | fixed level sub =>
      rw [hrow] at hx
      exact hx
    | nibble r j =>
      rw [hrow] at hx
      dsimp only at hx ⊢
      rw [priorityWritten_reg, setReg_reg hs]
      by_cases hr : r = k
      · simp [hr]
      · simp [hr, hx]

theorem pendingFresh_unrequest_foldl (l : List (Fin 15)) {s : State} (h : PendingFresh s) :
    PendingFresh (l.foldl (fun s k => unrequestSource (srcIrll k) s) s) := by
  induction l generalizing s with
  | nil => exact h
  | cons k l ih => exact ih (unrequestSource_pending h)

end Sys2Proof.Machine
end

section
/-! SUPPORT. The bus operations keep the invariant: a named register's write may touch the parts that read the
registers its handler writes, and leaves each of them in order; a default write touches none of them. -/
namespace Sys2Proof.Machine
open Sys2Proof

/-! ## The parts that a register's write may touch -/

/-- The parts of the invariant that the write of a named register may touch. -/
def handlerParts (r : Reg) : List BlockPart :=
  match r with
  | .icr | .ipr _ => [.intc]
  | .sar n | .dar n | .dmatcr n | .chcr n => [.chan n]
  | .dmaor => [.chan 0, .chan 1, .chan 2, .chan 3]
  | .rtcsr | .rtcnt | .rtcor => [.widths, .refresh]
  | .rfcr => [.widths]
  | .pctra | .pctrb => [.pins]
  | .rcr2 => [.widths, .clock]
  | .tstr => [.timer 0, .timer 1, .timer 2]
  | .tcnt n => [.timer n]
  | .tcr n => [.timer n, .intc]
  | _ => []

/-- The registers without storage, whose writes do nothing (43_regfile R297 to R299). -/
def hardWired : List Reg := [.pvr, .prr, .rsvz]

/-- The parts whose own state the effect of a register's write names. -/
theorem named_handlerEffect {cfg : Config} {r : Reg} {p : BlockPart} (hp : p.Named (handlerEffect cfg r)) :
    p ∈ handlerParts r := by
  cases p <;> simp only [BlockPart.Named, handlerEffect] at hp
  case intc =>
    rcases hp with hp | hp <;> split at hp <;> simp_all [handlerParts]
  all_goals
    split at hp <;> simp_all [handlerParts]

/-- The other registers that a handler writes, each with the registers whose handlers do. -/
theorem mem_handlerRegs {cfg : Config} {q r : Reg} (h : q ∈ handlerRegs cfg r) :
    (∃ n, q = .sar n ∨ q = .dar n) ∨ (q = .rtcnt ∧ (r = .rtcsr ∨ r = .rtcor)) ∨
    (q ∈ Reg.r64cnt :: calendarRegs ∧ r = .rcr2) ∨ ∃ n, q = .tcnt n ∧ (r = .tstr ∨ r = .tcr n) := by
  unfold handlerRegs at h
  split at h
  case h_5 =>
    split at h
    · simp only [List.mem_cons, List.not_mem_nil, or_false] at h
      rcases h with rfl | rfl | rfl | rfl | rfl | rfl | rfl | rfl <;> simp
    · cases h
  case h_8 => exact .inr (.inr (.inl ⟨h, rfl⟩))
  case h_1 n | h_2 n | h_3 n | h_4 n =>
    split at h
    · exact .inl ⟨n, by simpa using h⟩
    · cases h
  case h_9 =>
    simp only [List.mem_cons, List.not_mem_nil, or_false] at h
    rcases h with rfl | rfl | rfl <;> simp
  all_goals simp_all

/-- A part that reads the register written is one of its parts. -/
theorem mem_handlerParts_self {r : Reg} (hr : r ∉ hardWired) {p : BlockPart} (hread : r ∈ p.reads) :
    p ∈ handlerParts r := by
  cases p <;> simp only [BlockPart.reads, List.mem_cons, List.not_mem_nil, or_false] at hread
  case intc => rcases hread with rfl | rfl | rfl | rfl <;> exact List.mem_singleton_self _
  case timer n =>
    rcases hread with rfl | rfl | rfl
    · fin_cases n <;> simp [handlerParts]
    · exact List.mem_singleton_self _
    · exact List.mem_cons_self
  case widths => rcases hread with rfl | rfl | rfl | rfl | rfl | rfl | rfl | rfl <;> simp_all [handlerParts, hardWired]
  case refresh => rcases hread with rfl | rfl | rfl <;> simp [handlerParts]
  case clock => simp [hread, handlerParts]
  case pins => rcases hread with rfl | rfl <;> exact List.mem_singleton_self _

/-- A part that reads a register which a handler writes is one of the handler's parts. -/
theorem mem_handlerParts_of_reads {cfg : Config} {q r : Reg} {p : BlockPart} (hread : q ∈ p.reads)
    (hmem : q ∈ handlerRegs cfg r) : p ∈ handlerParts r := by
  rcases mem_handlerRegs hmem with ⟨n, rfl | rfl⟩ | ⟨rfl, hr⟩ | ⟨hcal, rfl⟩ | ⟨n, rfl, hr⟩
  · cases p <;> simp [BlockPart.reads] at hread
  · cases p <;> simp [BlockPart.reads] at hread
  · rcases hr with rfl | rfl <;> cases p <;> simp_all [BlockPart.reads, handlerParts]
  · simp only [calendarRegs, List.mem_cons, List.not_mem_nil, or_false] at hcal
    rcases hcal with rfl | rfl | rfl | rfl | rfl | rfl | rfl | rfl <;> cases p <;> simp [BlockPart.reads] at hread
  · cases p <;> simp [BlockPart.reads] at hread
    case timer m =>
      subst hread
      rcases hr with rfl | rfl
      · fin_cases n <;> simp [handlerParts]
      · exact List.mem_cons_self

/-- The parts that the effect of a register's write touches. -/
theorem mem_handlerParts {cfg : Config} (hs : cfg.separate = true) {r : Reg} (hr : r ∉ hardWired) {p : BlockPart}
    (hp : p.Touched cfg (handlerEffect cfg r)) : p ∈ handlerParts r := by
  rcases hp with hnamed | ⟨q, hq, hmem⟩
  · exact named_handlerEffect hnamed
  · rcases List.mem_cons.1 ((mem_map_index hs).1 hmem) with rfl | hmem
    · exact mem_handlerParts_self hr hq
    · exact mem_handlerParts_of_reads hq hmem

/-! ## What a handler leaves of its parts -/

/-- The invariant of the controller says nothing of the test flag. -/
theorem intc_recompute {s : State} (h : BlockPart.Holds .intc s) : BlockPart.Holds .intc (recompute s) := h

theorem intc_setReg {s : State} (h : BlockPart.Holds .intc s) (hs : s.cfg.separate = true) {r : Reg}
    (hr : ∀ k, r ≠ .ipr k) (v : Word) : BlockPart.Holds .intc (s.setReg r v) := by
  have hw : Within { cells := [s.cfg.index r] } s (s.setReg r v) :=
    within_setReg (within_self _ s) (List.mem_singleton_self _) v
  refine intc_of_within h hw rfl (fun k hk => ?_) h.1
  exact hr k ((index_inj hs).1 (List.mem_singleton.1 hk)).symm

theorem tmuArm_intc (n : TmuChan) (s : State) : (tmuArm n s).intc = s.intc := by
  rw [tmuArm_eq]
  rfl

theorem pendingFresh_tcrWritten {n : TmuChan} {old new : State} (h : PendingFresh new) :
    PendingFresh (tcrWritten n old new) := by
  have harmed : ∀ u : State, u.intc = new.intc → PendingFresh (tmuArm n u) := by
    intro u hu
    unfold PendingFresh
    rw [tmuArm_intc, hu]
    exact h
  have hcounted : PendingFresh (if tstrStr (new.reg .tstr) n then
      tmuArm n (if (old.timer n).deadline.isSome then new.setReg (.tcnt n) (tmuLive n old) else new) else new) := by
    split
    · exact harmed _ (by split <;> rfl)
    · exact h
  unfold tcrWritten
  dsimp only
  generalize (if tstrStr (new.reg .tstr) n then
      tmuArm n (if (old.timer n).deadline.isSome then new.setReg (.tcnt n) (tmuLive n old) else new)
    else new) = s1 at hcounted ⊢
  split
  · exact unrequestSource_pending hcounted
  · exact hcounted

theorem intc_tcrWritten {n : TmuChan} {s : State} (h : BlockPart.Holds .intc s) (hs : s.cfg.separate = true)
    (v : Word) : BlockPart.Holds .intc (tcrWritten n s (s.setReg (.tcr n) v)) := by
  have hw : Within (handlerEffect s.cfg (.tcr n)) s (tcrWritten n s (s.setReg (.tcr n) v)) :=
    within_tcrWritten (within_setReg (within_self _ s) (by simp [handlerEffect]) v) (by simp [handlerEffect])
      (by simp [handlerEffect, handlerRegs]) rfl s
  refine intc_of_within h hw rfl (fun k hk => ?_) (pendingFresh_tcrWritten h.1)
  have := (mem_map_index hs).1 hk
  simp [handlerRegs] at this

/-- The handler of a register's write leaves the parts that it may touch in order (43_regfile R295). -/
theorem holds_writeHandler {s t : State} (h : Inv s) {r : Reg} {v : Word}
    (ht : writeHandler r s (s.setReg r v) = .next t) {p : BlockPart} (hp : p ∈ handlerParts r) : p.Holds t := by
  have hs := h.cfg.separate
  cases r <;> simp only [handlerParts, List.mem_cons, List.not_mem_nil, or_false] at hp
  case icr =>
    subst hp
    cases ht
    exact intc_recompute (intc_setReg (h.part .intc) hs (fun _ e => Reg.noConfusion e) v)
  case ipr k =>
    subst hp
    cases ht
    exact intc_priorityWritten (h.part .intc) hs k v
  case sar n | dar n | dmatcr n | chcr n =>
    subst hp
    exact chan_checkChannel ht (h.part (.chan n))
  case dmaor =>
    rw [writeHandler, checkAll_eq_checkEach] at ht
    have hchans := chans_checkEach ht fun n => h.part (.chan n)
    rcases hp with rfl | rfl | rfl | rfl <;> exact hchans _
  case rtcsr =>
    cases ht
    rcases hp with rfl | rfl
    · exact widths_rtcsrWritten hs (h.part .widths) v
    · exact refresh_rtcsrWritten _ _
  case rtcnt =>
    cases ht
    rcases hp with rfl | rfl
    · exact widths_rtcntWritten hs (h.part .widths) v
    · exact refresh_rtcntWritten (h.part .refresh) hs v
  case rtcor =>
    cases ht
    rcases hp with rfl | rfl
    · exact widths_rtcorWritten hs (h.part .widths) v
    · exact refresh_rtcorWritten (h.part .refresh) hs v
  case rfcr =>
    subst hp
    cases ht
    exact widths_rfcrWritten hs (h.part .widths) v
  case pctra =>
    subst hp
    cases ht
    exact pins_pctraWritten (h.part .pins) hs v
  case pctrb =>
    subst hp
    cases ht
    exact pins_pctrbWritten (h.part .pins) hs v
  case rcr2 =>
    cases ht
    rcases hp with rfl | rfl
    · exact widths_rcr2Written hs (h.part .widths) v
    · exact clock_rcr2Written (h.part .clock) hs v
  case tstr =>
    cases ht
    rcases hp with rfl | rfl | rfl <;> exact timer_tstrWritten (fun n => h.part (.timer n)) hs v _
  case tcnt n =>
    subst hp
    cases ht
    exact timer_tcntWritten (h.part (.timer n)) hs v
  case tcr n =>
    cases ht
    rcases hp with rfl | rfl
    · exact timer_tcrWritten (h.part (.timer n)) hs v
    · exact intc_tcrWritten (h.part .intc) hs v

/-! ## The default write -/

theorem busAccess_ofWrite (w : Width) (a d : Word) (r : Reg) :
    (Instr.ofWrite w a d r).busAccess = some ⟨true, some r, w, a, d⟩ := by
  unfold Instr.ofWrite
  split <;> rfl

theorem busAccess_ofRead (w : Width) (a : Word) (r : Reg) :
    (Instr.ofRead w a r).busAccess = some ⟨false, some r, w, a, 0⟩ := by
  unfold Instr.ofRead
  split <;> rfl

/-- The decoder's branches are port operations (30_encoding R115). -/
def DecodesToPort (r : Except DecodeError Instr) : Prop := ∀ i, r = .ok i → i.busAccess = none

theorem DecodesToPort.ite {c : Prop} [Decidable c] {a b : Except DecodeError Instr} (ha : DecodesToPort a)
    (hb : DecodesToPort b) : DecodesToPort (if c then a else b) := by
  split
  · exact ha
  · exact hb

theorem DecodesToPort.ok {i : Instr} (h : i.busAccess = none) : DecodesToPort (.ok i) := by
  rintro _ ⟨⟩
  exact h

theorem DecodesToPort.error (e : DecodeError) : DecodesToPort (.error e) := nofun

theorem decodesToPort_source (cfg : Config) (arg : Word) {k : Source → Instr} (hk : ∀ x, (k x).busAccess = none) :
    DecodesToPort (decodeSource cfg arg k) :=
  .ite (.ok (hk _)) (.error _)

theorem decodesToPort_fire (r : Except DecodeError TimerId) : DecodesToPort (r.map .fire) := by
  cases r with
  | error e => exact .error e
  | ok x => exact .ok rfl

/-- A word of format P decodes to a port operation (30_encoding R115). -/
theorem decodesToPort_decodeP (cfg : Config) (x : BitVec 40) : DecodesToPort (decodeP cfg x) := by
  unfold decodeP
  dsimp only
  exact .ite (decodesToPort_source _ _ fun _ => rfl) <| .ite (decodesToPort_source _ _ fun _ => rfl) <|
    .ite (.ok rfl) <| .ite (.ok rfl) <| .ite (decodesToPort_source _ _ fun _ => rfl) <| .ite (.ok rfl) <|
    .ite (.ok rfl) <| .ite (.ok rfl) <| .ite (.ok rfl) <| .ite (.ok rfl) <| .ite (.ok rfl) <|
    .ite (decodesToPort_fire _) <| .ite (.ok rfl) (.error _)

/-- Only an address that no named register has decodes to the default write (30_encoding R114). -/
theorem ofIndex_of_decode {cfg : Config} {op : RawOp} {w : Width} {a d : Word}
    (h : decode cfg op = .ok (.wrDefault w a d)) : cfg.ofIndex (regIndex cfg a) = none := by
  cases op with
  | p x => cases decodesToPort_decodeP cfg x _ h
  | b x =>
    change decodeB cfg x = _ at h
    unfold decodeB at h
    dsimp only at h
    cases hw : decodeWidth (x.extractLsb' 64 2) with
    | error e => rw [hw] at h; cases h
    | ok w' =>
      rw [hw] at h
      have hi := Except.ok.inj h
      dsimp only at hi
      split at hi
      · rename_i r _ _
        have hacc := busAccess_ofWrite w' (x.extractLsb' 32 32) (x.extractLsb' 0 32) r
        rw [hi] at hacc
        cases hacc
      · cases hi
        assumption
      · rename_i r _ _
        have hacc := busAccess_ofRead w' (x.extractLsb' 32 32) r
        rw [hi] at hacc
        cases hacc
      · cases hi

/-! ## Every bus operation -/

/-- An operation that touches no part keeps the invariant. -/
theorem inv_of_untouched {e : Effect} {s t : State} (h : Inv s) (hw : Within e s t) (hcells : ∀ i ∈ e.cells, i < 0x4000)
    (hp : ∀ p : BlockPart, ¬p.Touched s.cfg e) : Inv t :=
  inv_of_within h hw hcells fun p ht => absurd ht (hp p)

theorem not_touched_of_empty (cfg : Config) (p : BlockPart) : ¬p.Touched cfg {} := by
  rintro (h | ⟨_, _, h⟩)
  · cases p <;> simp [BlockPart.Named] at h
  · cases h

theorem inv_writeHandler {s t : State} (h : Inv s) {r : Reg} (hr : r ∉ hardWired) {w : Width} {a d : Word}
    (ht : writeHandler r s (storeMasked (s.cfg.index r) w a d s) = .next t) : Inv t := by
  refine inv_of_within h (within_writeHandler ht) (map_index_lt _ _) fun p hp => ?_
  rw [storeMasked_index] at ht
  exact holds_writeHandler h ht (mem_handlerParts h.cfg.separate hr hp)

/-- A bus operation keeps the invariant, a default write where its cell is none of a named register. -/
theorem inv_busAccess {i : Instr} {b : BusAccess} (hb : i.busAccess = some b) {s t : State} (h : Inv s)
    (hx : exec i s = .next t)
    (hdefault : b.write = true → b.target = none → s.cfg.ofIndex (regIndex s.cfg b.addr) = none) : Inv t := by
  rcases busAccess_next hb hx with
    ⟨-, v, rfl⟩ | ⟨hwrite, htarget, rfl⟩ | ⟨-, -, rfl⟩ | ⟨-, r, -, hpvr, hprr, hrsvz, ht⟩
  · exact inv_of_untouched h (within_emit (within_self {} s) _) nofun (not_touched_of_empty _)
  · have hfree := ofIndex_eq_none.1 (hdefault hwrite htarget)
    refine inv_of_untouched (e := { cells := [regIndex s.cfg b.addr] }) h
      (within_emitDiag (within_storeMasked (within_self _ s) (List.mem_singleton_self _) _ _ _) _) ?_ ?_
    · simpa using regIndex_lt _ _
    · rintro p (hnamed | ⟨r, -, hmem⟩)
      · exact not_touched_of_empty s.cfg p (.inl hnamed)
      · exact hfree r (List.mem_singleton.1 hmem)
  · exact h
  · exact inv_writeHandler h (by simp [hardWired, hpvr, hprr, hrsvz]) ht

end Sys2Proof.Machine
end

section
/-! PROOF of `StepKeepsInvariant` (O9). Every operation stays within its effect, so it can lose only a part of the
invariant that its effect touches; for each operation these parts are shown to hold after it. `RESET` installs the
reset values, which the parameters give in order. -/
namespace Sys2Proof.Machine
open Sys2Proof

/-! ## The requests of the interrupt controller -/

/-- The invariant says nothing of the CPU context, the lines and the host's operands. -/
theorem inv_besideUnits {i : Instr} (hi : ∀ dt, i ≠ .advance dt) {s : State} (t : State) (h : Inv s) :
    Inv (besideUnits i s t) := by
  unfold besideUnits
  split
  case h_8 dt => exact absurd rfl (hi dt)
  all_goals
    exact ⟨h.cfg, h.mem, h.file, h.regs, h.range, h.intc, h.dma, h.tmu, h.refresh, h.rtc, h.gpio, h.time⟩

/-- The effect of an operation on the interrupt controller alone touches no part but the controller. -/
theorem touched_requests {cfg : Config} (hs : cfg.separate = true) {p : BlockPart} {l : List Nat}
    (hl : ∀ i ∈ l, i = cfg.index .intevt) (hp : p.Touched cfg { cells := l, requests := true }) : p = .intc := by
  rcases hp with hnamed | ⟨r, hr, hmem⟩
  · cases p <;> simp_all [BlockPart.Named]
  · have hr' : r = .intevt := (index_inj hs).1 (hl _ hmem)
    subst hr'
    cases p <;> simp [BlockPart.reads] at hr

/-- An operation on the interrupt controller alone keeps the invariant where it leaves the pending flag fresh. -/
theorem inv_of_requests {s t : State} (h : Inv s) {l : List Nat} (hl : ∀ i ∈ l, i = s.cfg.index .intevt)
    (hw : Within { cells := l, requests := true } s t) (hp : PendingFresh t) : Inv t := by
  refine inv_of_within h hw (fun i hi => hl i hi ▸ s.cfg.index_lt _) fun p ht => ?_
  rw [touched_requests h.cfg.separate hl ht]
  refine intc_of_within (h.part .intc) hw rfl (fun k hk => ?_) hp
  cases (index_inj h.cfg.separate).1 (hl _ hk)

theorem pendingFresh_raiseSource (x : Source) {s : State} (h : PendingFresh s) : PendingFresh (raiseSource x s) := by
  by_cases hacc : Accepts s x
  · obtain ⟨i, he, -, hi⟩ := raiseSource_accepted hacc
    have hi' : i.pending = anyRequesting i := by
      rw [hi]
      split
      · exact unrequestSource_pending h
      · exact h
    unfold PendingFresh
    rwa [he]
  · rwa [raiseSource_declined hacc]

theorem inv_raiseSource (x : Source) {s : State} (h : Inv s) : Inv (raiseSource x s) := by
  have hbase := inv_besideUnits (i := .raise x) (fun _ e => Instr.noConfusion e) (raiseSource x s) h
  exact inv_of_requests hbase (by simp [besideUnits]) (within_raiseSource x s) (pendingFresh_raiseSource x h.intc.1)

theorem pendingFresh_setIrl {k : Fin 4} {v : Bool} {s t : State} (h : PendingFresh s)
    (hx : exec (.setIrl k v) s = .next t) : PendingFresh t := by
  change execSetIrl k v s = _ at hx
  unfold execSetIrl at hx
  split at hx
  · cases hx
    exact h
  · split at hx
    · cases hx
      exact h
    · cases hx
      dsimp only
      split
      · exact requestSource_pending h
      · exact unrequestSource_pending h

theorem pendingFresh_setIrln {v : Word} {s t : State} (h : PendingFresh s)
    (hx : exec (.setIrln v) s = .next t) : PendingFresh t := by
  change execSetIrln v s = _ at hx
  unfold execSetIrln at hx
  split at hx
  · cases hx
    exact h
  · split at hx
    · cases hx
      exact h
    · cases hx
      have hall := pendingFresh_unrequest_foldl irllValues (s := s.setIntc { s.intc with irlLevel := field v 0 4 }) h
      unfold irlLevelShown
      dsimp only
      generalize irllValues.foldl (fun s k => unrequestSource (srcIrll k) s)
        (s.setIntc { s.intc with irlLevel := field v 0 4 }) = u at hall ⊢
      split
      · exact requestSource_pending hall
      · exact hall

/-! ## The lines and the host's transfers -/

/-- What an assertion of NMI may write of the block's units. -/
def nmiEffect (cfg : Config) : Effect :=
  { chans := [0, 1, 2, 3], cells := [cfg.index .dmaor], requests := true }

theorem within_dmacNmi_nmiEffect {s t : State} (h : Within (nmiEffect s.cfg) s t) :
    Within (nmiEffect s.cfg) s (dmacNmi t) := by
  refine within_dmacNmi h (fun n => ?_) (List.mem_singleton_self _)
  fin_cases n <;> simp [nmiEffect]

theorem pendingFresh_dmacNmi {s : State} (h : PendingFresh s) : PendingFresh (dmacNmi s) := by
  have hw : Within { nmiEffect s.cfg with requests := false } s (dmacNmi s) := by
    refine within_dmacNmi (within_self _ s) (fun n => ?_) (List.mem_singleton_self _)
    fin_cases n <;> simp [nmiEffect]
  obtain ⟨hrequesting, hpending, -⟩ := hw.requests rfl
  unfold PendingFresh
  rw [hpending, anyRequesting_congr hrequesting]
  exact h

theorem touched_nmiEffect {cfg : Config} (hs : cfg.separate = true) {p : BlockPart}
    (hp : p.Touched cfg (nmiEffect cfg)) : p = .intc ∨ ∃ n, p = .chan n := by
  rcases hp with hnamed | ⟨r, hr, hmem⟩
  · cases p <;> simp_all [BlockPart.Named, nmiEffect]
  · have hr' : r = .dmaor := (index_inj hs).1 (List.mem_singleton.1 hmem)
    subst hr'
    cases p <;> simp [BlockPart.reads] at hr

/-- An assertion of NMI touches the controller and the channels (40_intc R176, 41_dmac R220). -/
theorem inv_nmiAsserted {s : State} (h : Inv s) : Inv (dmacNmi (requestSource srcNmi s)) := by
  have hs := h.cfg.separate
  have hw : Within (nmiEffect s.cfg) s (dmacNmi (requestSource srcNmi s)) :=
    within_dmacNmi_nmiEffect (within_request (within_self _ s) rfl _)
  refine inv_of_within h hw (by simpa [nmiEffect] using s.cfg.index_lt _) fun p hp => ?_
  rcases touched_nmiEffect hs hp with rfl | ⟨n, rfl⟩
  · refine intc_of_within (h.part .intc) hw rfl (fun k hk => ?_)
      (pendingFresh_dmacNmi (requestSource_pending h.intc.1))
    cases (index_inj hs).1 (List.mem_singleton.1 hk)
  · exact chan_dmacNmi (holds_requestSource (p := .chan n) nofun (h.part (.chan n)) srcNmi)

theorem inv_setNmi {v : Bool} {s t : State} (h : Inv s) (hx : exec (.setNmi v) s = .next t) : Inv t := by
  have hline : ∀ b, Inv (s.setIntc { s.intc with nmiLine := b }) := fun b =>
    ⟨h.cfg, h.mem, h.file, h.regs, h.range, h.intc, h.dma, h.tmu, h.refresh, h.rtc, h.gpio, h.time⟩
  rcases setNmi_next hx with (rfl | rfl) | ⟨-, rfl⟩
  · exact h
  · exact hline v
  · exact inv_nmiAsserted (hline true)

theorem inv_dmaData {n : Chan} {s t : State} (h : Inv s) (hx : exec (.dmaData n) s = .next t) : Inv t := by
  have hbase := inv_besideUnits (i := .dmaData n) (fun _ e => Instr.noConfusion e) t h
  refine inv_of_within hbase (within_pump hx) nofun ?_
  rintro p (hnamed | ⟨_, _, hmem⟩)
  · have hp : p = .chan n := by cases p <;> simp_all [BlockPart.Named]
    subst hp
    exact chan_pump hx (h.part (.chan n))
  · cases hmem

/-- `DMA_DDT` touches no part: the address registers are in none. -/
theorem inv_dmaDdt {n : Chan} {s t : State} (h : Inv s) (hx : exec (.dmaDdt n) s = .next t) : Inv t := by
  have hbase := inv_besideUnits (i := .dmaDdt n) (fun _ e => Instr.noConfusion e) t h
  refine inv_of_untouched hbase (within_ddt hx) (map_index_lt s.cfg [.sar n, .dar n]) ?_
  rintro p (hnamed | ⟨r, hr, hmem⟩)
  · exact not_touched_of_empty s.cfg p (.inl hnamed)
  · have hr' : r ∈ [Reg.sar n, .dar n] := (mem_map_index h.cfg.separate).1 hmem
    simp only [List.mem_cons, List.not_mem_nil, or_false] at hr'
    rcases hr' with rfl | rfl <;> cases p <;> simp [BlockPart.reads] at hr

/-! ## Time -/

/-- The parts of the invariant that an expiry may touch. -/
def expiryParts (x : TimerId) : List BlockPart :=
  match x with
  | .dma n => [.chan n, .intc]
  | .tmu n => [.timer n, .intc]
  | .ref => [.widths, .refresh]
  | .rtc => [.clock]

theorem mem_expiryParts {cfg : Config} (hs : cfg.separate = true) {x : TimerId} {p : BlockPart}
    (hp : p.Touched cfg (expiryEffect cfg x)) : p ∈ expiryParts x := by
  rcases hp with hnamed | ⟨r, hr, hmem⟩
  · cases x <;> cases p <;> simp_all [BlockPart.Named, expiryEffect, expiryParts]
  · have hr' : r ∈ expiryRegs x := (mem_map_index hs).1 hmem
    cases x <;> simp only [expiryRegs, calendarRegs, List.mem_cons, List.not_mem_nil, or_false] at hr'
    case dma n => rcases hr' with rfl | rfl <;> cases p <;> simp [BlockPart.reads] at hr
    case tmu n =>
      rcases hr' with rfl | rfl <;> cases p <;> simp [BlockPart.reads] at hr <;> simp [expiryParts, hr]
    case ref =>
      rcases hr' with rfl | rfl | rfl <;> cases p <;> simp [BlockPart.reads] at hr <;> simp [expiryParts]
    case rtc =>
      rcases hr' with rfl | rfl | rfl | rfl | rfl | rfl | rfl | rfl | rfl <;>
        cases p <;> simp [BlockPart.reads] at hr

theorem pendingFresh_dmaComplete (n : Chan) {s : State} (h : PendingFresh s) : PendingFresh (dmaComplete n s) := by
  unfold dmaComplete
  dsimp only
  split
  · exact requestSource_pending h
  · exact h

theorem pendingFresh_tmuExpire (n : TmuChan) {s : State} (h : PendingFresh s) : PendingFresh (tmuExpire n s) := by
  have harmed : PendingFresh (tmuArm n (s.setReg (.tcnt n) (s.reg (.tcor n)))) := by
    unfold PendingFresh
    rw [tmuArm_intc]
    exact h
  unfold tmuExpire
  dsimp only
  generalize tmuArm n (s.setReg (.tcnt n) (s.reg (.tcor n))) = s1 at harmed ⊢
  split
  · exact requestSource_pending harmed
  · exact harmed

/-- An expiry of a timer leaves the parts that it may touch in order. -/
theorem holds_expire {s : State} (h : Inv s) {x : TimerId} {d : Time} (hd : deadlineOf x s = some d) {p : BlockPart}
    (hp : p ∈ expiryParts x) : p.Holds (expire x s) := by
  have hs := h.cfg.separate
  have hintc : PendingFresh (expire x s) → BlockPart.Holds .intc (expire x s) := by
    refine intc_of_within (h.part .intc) (within_expire x s) rfl fun k hk => ?_
    have hk' : Reg.ipr k ∈ expiryRegs x := (mem_map_index hs).1 hk
    cases x <;> simp [expiryRegs, calendarRegs] at hk'
  cases x <;> simp only [expiryParts, List.mem_cons, List.not_mem_nil, or_false] at hp
  case dma n =>
    rcases hp with rfl | rfl
    · exact chan_dmaComplete n s
    · exact hintc (pendingFresh_dmaComplete n h.intc.1)
  case tmu n =>
    rcases hp with rfl | rfl
    · exact timer_tmuExpire hs (started_of_deadline hd (h.part (.timer n)))
    · exact hintc (pendingFresh_tmuExpire n h.intc.1)
  case ref =>
    rcases hp with rfl | rfl
    · exact widths_refExpire hs (h.part .widths)
    · exact refresh_refExpire hs (refActive_of_deadline hd (h.part .refresh))
  case rtc =>
    subst hp
    exact clock_rtcExpire (h.part .clock) hs

theorem inv_fire {x : TimerId} {s t : State} (h : Inv s) (hx : exec (.fire x) s = .next t) : Inv t := by
  obtain ⟨hdue, rfl⟩ := fire_next hx
  obtain ⟨d, hd, -⟩ := timerDue_iff.1 hdue
  exact inv_of_within h (within_expire x s) (map_index_lt _ _) fun p hp =>
    holds_expire h hd (mem_expiryParts h.cfg.separate hp)

/-- Time passes up to the next deadline: what was armed stays armed no later than now. -/
theorem inv_advance {dt : Word} {s t : State} (h : Inv s) (hx : exec (.advance dt) s = .next t) : Inv t := by
  obtain ⟨hen, rfl⟩ := advance_next hx
  unfold advanceEnabled at hen
  rw [Bool.and_eq_true] at hen
  obtain ⟨-, htime⟩ := hen
  refine ⟨h.cfg, h.mem, h.file, h.regs, h.range, h.intc, h.dma, fun n => ?_, ?_, h.rtc, h.gpio, htime⟩
  · have hn := h.tmu n
    unfold TmuInv at hn ⊢
    change if tstrStr (s.reg .tstr) n = true ∧ tmuDivOf s.cfg (s.reg (.tcr n)) ≠ 0 then
      (s.timer n).armedAt ≤ s.now + dt.toNat ∧ _ else _
    split at hn
    · rename_i harmed
      rw [if_pos harmed]
      exact ⟨le_trans hn.1 (Nat.le_add_right ..), hn.2⟩
    · rename_i harmed
      rwa [if_neg harmed]
  · have hr := h.refresh
    unfold RefreshInv at hr ⊢
    change if rtcsrCks (s.reg .rtcsr) ≠ 0 then s.refresh.armedAt ≤ s.now + dt.toNat ∧ _ else _
    split at hr
    · rename_i harmed
      rw [if_pos harmed]
      exact ⟨le_trans hr.1 (Nat.le_add_right ..), hr.2⟩
    · rename_i harmed
      rwa [if_neg harmed]

/-! ## Reset -/

theorem intcReset_prio (cfg : Config) (x : Source) :
    (intcReset cfg).prio[x] = (cfg.srcEntry x).resetPrio cfg.reset.peripheralSub :=
  Vector.getElem_ofFn ..

theorem intc_resetBlock {s : State} (hc : Coherent s.cfg) : BlockPart.Holds .intc (resetBlock s) := by
  refine ⟨hc.pending, fun x => ?_⟩
  rw [resetBlock_intc, intcReset_prio]
  unfold prioExpected
  rw [resetBlock_cfg]
  cases s.cfg.srcEntry x with
  | fixed level sub => rfl
  | nibble r k =>
    dsimp only [SrcEntry.resetPrio]
    rw [resetBlock_reg _ _ hc.separate, hc.nibbles]

theorem timer_resetBlock {s : State} (hc : Coherent s.cfg) (n : TmuChan) :
    BlockPart.Holds (.timer n) (resetBlock s) := by
  obtain ⟨hdeadline, hcounts⟩ := hc.tmu
  have hd : ((resetBlock s).timer n).deadline = none := by rw [resetBlock_timer, hdeadline]
  cases hstart : tstrStr ((resetBlock s).reg .tstr) n with
  | false => exact timer_of_stopped hstart hd
  | true =>
    rw [resetBlock_reg _ _ hc.separate] at hstart
    refine timer_of_uncounted ?_ hd
    rw [resetBlock_reg _ _ hc.separate]
    exact hcounts n hstart

/-- The reset values leave every part in order (70_reset_and_hazards R370, R372). -/
theorem holds_resetBlock {s : State} (hc : Coherent s.cfg) (p : BlockPart) : p.Holds (resetBlock s) := by
  have hreg : (resetBlock s).reg = s.cfg.resetValue := funext fun r => resetBlock_reg s r hc.separate
  cases p with
  | widths =>
    change WidthsKept (resetBlock s).reg
    rw [hreg]
    exact hc.regs
  | intc => exact intc_resetBlock hc
  | chan n =>
    obtain ⟨hshape, hdeadline⟩ := hc.dma
    refine ⟨?_, ?_⟩ <;> rw [resetBlock_chan]
    · exact hshape
    · exact hdeadline ▸ onTime_none _
  | timer n => exact timer_resetBlock hc n
  | refresh =>
    obtain ⟨hdeadline, hcks⟩ := hc.refresh
    refine refresh_of_inactive ?_ hdeadline
    unfold refActive
    rw [hreg, hcks]
    rfl
  | clock =>
    refine ⟨?_, onTime_now (Nat.le_add_right ..)⟩
    rw [hreg, hc.rtc]
    rfl
  | pins =>
    change GpioAgrees s.cfg.reset.gpio ((resetBlock s).reg .pctra) ((resetBlock s).reg .pctrb)
    rw [hreg]
    exact hc.gpio

theorem inv_resetBlock {s : State} (hc : Coherent s.cfg) (hmem : Memory.wf s.mem = true) : Inv (resetBlock s) :=
  inv_of_parts hc hmem (regsReset_wf _) (fun _ hi => regsReset_range _ hi) (holds_resetBlock hc)

/-! ## Every operation, every event -/

/-- The write of no named register is the default write. -/
theorem wrDefault_of_untargeted {i : Instr} {b : BusAccess} (h : i.busAccess = some b) (hwrite : b.write = true)
    (htarget : b.target = none) : i = .wrDefault b.width b.addr b.data := by
  cases i <;> cases h <;> first | rfl | (cases hwrite; done) | cases htarget

/-- Every operation keeps the invariant, a default write where its cell is none of a named register. -/
theorem inv_exec {i : Instr} {s t : State} (h : Inv s) (hx : exec i s = .next t)
    (hdefault : ∀ w a d, i = .wrDefault w a d → s.cfg.ofIndex (regIndex s.cfg a) = none) : Inv t := by
  cases hb : i.busAccess with
  | some b =>
    exact inv_busAccess hb h hx fun hwrite htarget => hdefault _ _ _ (wrDefault_of_untargeted hb hwrite htarget)
  | none =>
    have hpending : PendingFresh s := h.intc.1
    cases i with
    | request x =>
      cases hx
      exact inv_of_requests (l := []) h nofun (within_request (within_self _ s) rfl x) (requestSource_pending hpending)
    | unrequest x =>
      cases hx
      exact inv_of_requests (l := []) h nofun (within_unrequest (within_self _ s) rfl x)
        (unrequestSource_pending hpending)
    | recompute =>
      cases hx
      exact inv_of_requests (l := []) h nofun (within_recompute (within_self _ s) rfl) hpending
    | raise x =>
      cases hx
      exact inv_raiseSource x h
    | boundary d =>
      cases hx
      rcases boundary_cases d s with he | ⟨x, he⟩ <;> rw [he]
      · exact h
      · exact inv_raiseSource x h
    | setIrl k v =>
      have hbase := inv_besideUnits (i := .setIrl k v) (fun _ e => Instr.noConfusion e) t h
      exact inv_of_requests (l := []) hbase nofun (within_setIrl hx) (pendingFresh_setIrl hpending hx)
    | setIrln v =>
      have hbase := inv_besideUnits (i := .setIrln v) (fun _ e => Instr.noConfusion e) t h
      exact inv_of_requests (l := []) hbase nofun (within_setIrln hx) (pendingFresh_setIrln hpending hx)
    | setNmi v => exact inv_setNmi h hx
    | dmaData n => exact inv_dmaData h hx
    | dmaDdt n => exact inv_dmaDdt h hx
    | advance dt => exact inv_advance h hx
    | fire x => exact inv_fire h hx
    | reset =>
      cases hx
      exact inv_resetBlock h.cfg h.mem
    | _ => cases hb

/-- Taking an event off the input changes nothing that the invariant speaks of. -/
theorem inv_withEvents {s : State} (h : Inv s) (es : List Event) : Inv (s.withEvents es) :=
  ⟨h.cfg, h.mem, h.file, h.regs, h.range, h.intc, h.dma, h.tmu, h.refresh, h.rtc, h.gpio, h.time⟩

/-- An event of the environment writes only what is its own (70_reset_and_hazards R386). -/
theorem inv_happen {e : Event} {s t : State} (h : Inv s) (hx : happen e s = .next t) : Inv t := by
  cases e with
  | op w =>
    cases hdecode : decode s.cfg w with
    | error e =>
      simp only [happen, hdecode] at hx
      cases hx
    | ok i =>
      simp only [happen, hdecode] at hx
      exact inv_exec h hx fun w a d hi => ofIndex_of_decode (hi ▸ hdecode)
  | poke a v =>
    cases hx
    exact ⟨h.cfg, setByte_wf h.mem a v, h.file, h.regs, h.range, h.intc, h.dma, h.tmu, h.refresh, h.rtc, h.gpio, h.time⟩
  | _ =>
    cases hx
    exact ⟨h.cfg, h.mem, h.file, h.regs, h.range, h.intc, h.dma, h.tmu, h.refresh, h.rtc, h.gpio, h.time⟩

/-- Settles O9: the event of the step by its kind, an operation by the parts that it touches. -/
theorem stepKeepsInvariant : Obligations.StepKeepsInvariant := by
  intro s t h hx
  unfold step at hx
  split at hx
  · cases hx
    exact h
  · exact inv_happen (inv_withEvents h _) hx

end Sys2Proof.Machine
end

section
/-! PROOF of `FlagsSetOnlyAsTabled` (O59). An operation's effect names the registers and the flags that it may write:
a status register is in no effect but its own write's, its timer's and, for `DMAOR`, the NMI's; and the operations
whose effect names the controller's flags are those of the table, of which the last clause asks which may request. -/
namespace Sys2Proof.Machine
open Sys2Proof

/-! ## The status registers -/

/-- The registers that hold a status flag (10_state R54). -/
def StatusReg (r : Reg) : Prop :=
  match r with
  | .dmaor | .chcr _ | .rtcsr | .rcr1 | .tcr _ => True
  | _ => False

/-- No handler writes a status register but its own. -/
theorem StatusReg.not_mem_handlerRegs {r : Reg} (hr : StatusReg r) (cfg : Config) (q : Reg) :
    r ∉ handlerRegs cfg q := by
  intro hmem
  rcases mem_handlerRegs hmem with ⟨n, rfl | rfl⟩ | ⟨rfl, -⟩ | ⟨hcal, -⟩ | ⟨n, rfl, -⟩
  · exact hr
  · exact hr
  · exact hr
  · simp only [calendarRegs, List.mem_cons, List.not_mem_nil, or_false] at hcal
    rcases hcal with rfl | rfl | rfl | rfl | rfl | rfl | rfl | rfl <;> exact hr
  · exact hr

/-- A bus operation may write a status register by its own write alone. -/
theorem target_of_mem_busEffect {cfg : Config} (hs : cfg.separate = true) {r : Reg} (hr : StatusReg r)
    {b : BusAccess} (hfits : cfg.ofIndex (regIndex cfg b.addr) = b.target)
    (hmem : cfg.index r ∈ (busEffect cfg b).cells) : b.write = true ∧ b.target = some r := by
  unfold busEffect at hmem
  split at hmem
  · cases hmem
  · rename_i hwrite
    rw [Bool.not_eq_false] at hwrite
    split at hmem
    · rename_i hnone
      rw [hnone] at hfits
      exact absurd (List.mem_singleton.1 hmem) (ofIndex_eq_none.1 hfits r)
    · cases hmem
    · cases hmem
    · cases hmem
    · rename_i q _ _ _ hq
      rcases List.mem_cons.1 ((mem_map_index hs).1 hmem) with rfl | hother
      · exact ⟨hwrite, hq⟩
      · exact absurd hother (hr.not_mem_handlerRegs cfg q)

/-- The operations that may write a status register. -/
theorem writes_of_mem_execEffect {cfg : Config} (hs : cfg.separate = true) {r : Reg} (hr : StatusReg r) {i : Instr}
    (hwf : i.wellFormed cfg = true) (hmem : cfg.index r ∈ (execEffect cfg i).cells) :
    (r = .dmaor ∧ i = .setNmi true) ∨ (∃ x, i = .fire x ∧ r ∈ expiryRegs x) ∨ i.writesReg = some r := by
  cases hb : i.busAccess with
  | some b =>
    rw [execEffect_busAccess hb] at hmem
    obtain ⟨-, -, hfits⟩ := (wellFormed_iff hb cfg).1 hwf
    obtain ⟨hwrite, htarget⟩ := target_of_mem_busEffect hs hr hfits hmem
    exact .inr (.inr ((writesReg_of_busAccess hb hwrite).trans htarget))
  | none =>
    have hintevt : cfg.index r ∉ [cfg.index .intevt] := by
      rw [List.mem_singleton, index_inj hs]
      rintro rfl
      exact hr
    cases i with
    | raise x => exact absurd hmem hintevt
    | boundary d =>
      cases d with
      | true => cases hmem
      | false => exact absurd hmem hintevt
    | setNmi v =>
      cases v with
      | true => exact .inl ⟨(index_inj hs).1 (List.mem_singleton.1 hmem), rfl⟩
      | false => cases hmem
    | dmaDdt n =>
      have hmem' : r ∈ [Reg.sar n, .dar n] := (mem_map_index hs).1 hmem
      simp only [List.mem_cons, List.not_mem_nil, or_false] at hmem'
      rcases hmem' with rfl | rfl <;> cases hr
    | fire x => exact .inr (.inl ⟨x, rfl, (mem_map_index hs).1 hmem⟩)
    | request | unrequest | recompute | setIrl | setIrln | dmaData | advance | reset => cases hmem
    | _ => cases hb

theorem besideUnits_reg (i : Instr) (s t : State) (r : Reg) : (besideUnits i s t).reg r = s.reg r := by
  unfold besideUnits
  split <;> rfl

theorem besideUnits_flags (i : Instr) (s t : State) :
    (besideUnits i s t).intc.pending = s.intc.pending ∧ (besideUnits i s t).intc.test = s.intc.test := by
  unfold besideUnits
  split <;> exact ⟨rfl, rfl⟩

theorem besideUnits_cfg (i : Instr) (s t : State) : (besideUnits i s t).cfg = s.cfg :=
  (besideUnits_environment i s t).1

/-- An operation but `RESET` that changes a status register is one of those that may write it. -/
theorem writes_of_changed {i : Instr} {s t : State} (hwf : i.wellFormed s.cfg = true) (hs : s.cfg.separate = true)
    (hne : i ≠ .reset) (hx : exec i s = .next t) {r : Reg} (hr : StatusReg r) (hchanged : t.reg r ≠ s.reg r) :
    (r = .dmaor ∧ i = .setNmi true) ∨ (∃ x, i = .fire x ∧ r ∈ expiryRegs x) ∨ i.writesReg = some r := by
  refine writes_of_mem_execEffect hs hr hwf ?_
  by_contra hmem
  refine hchanged ((within_reg (within_exec hx hne) ?_).trans (besideUnits_reg i s t r))
  rwa [besideUnits_cfg]

/-- The same of a flag: what set it may write its register. -/
theorem writes_of_flag {i : Instr} {s t : State} (hwf : i.wellFormed s.cfg = true) (hs : s.cfg.separate = true)
    (hne : i ≠ .reset) (hx : exec i s = .next t) {r : Reg} (hr : StatusReg r) {j : Nat}
    (hclear : bit (s.reg r) j = false) (hset : bit (t.reg r) j = true) :
    (r = .dmaor ∧ i = .setNmi true) ∨ (∃ x, i = .fire x ∧ r ∈ expiryRegs x) ∨ i.writesReg = some r := by
  refine writes_of_changed hwf hs hne hx hr fun hsame => ?_
  rw [hsame, hclear] at hset
  cases hset

/-! ## `DMAOR` -/

/-- A register's write, as its handler is given it. -/
theorem writeHandler_of_writesReg {i : Instr} {s t : State} {r : Reg} (h : i.writesReg = some r)
    (hx : exec i s = .next t) (hr : r ∉ hardWired) : ∃ v, writeHandler r s (s.setReg r v) = .next t := by
  unfold Instr.writesReg at h
  split at h
  · rename_i b hb
    have hwrite : b.write = true := by
      by_contra hread
      rw [if_neg hread] at h
      cases h
    rw [if_pos hwrite] at h
    rcases busAccess_next hb hx with ⟨hread, -⟩ | ⟨-, hnone, -⟩ | ⟨-, hhard, -⟩ | ⟨-, q, hq, -, -, -, ht⟩
    · exact absurd (hwrite.symm.trans hread) (by decide)
    · cases h.symm.trans hnone
    · rw [h] at hhard
      rcases hhard with hhard | hhard | hhard <;> cases hhard <;> simp [hardWired] at hr
    · cases h.symm.trans hq
      rw [storeMasked_index] at ht
      exact ⟨_, ht⟩
  · cases h

theorem checkEach_dmaor {ns : List Chan} {s t : State} (hs : s.cfg.separate = true)
    (h : checkEach ns s = .next t) : t.reg .dmaor = s.reg .dmaor := by
  induction ns generalizing s with
  | nil =>
    cases h
    rfl
  | cons n ns ih =>
    obtain ⟨u, hu, h⟩ := andThen_inv h
    have hw := within_check hu
    rw [ih (by rwa [hw.cfg]) h]
    exact within_reg hw (by simp [checkEffect, index_inj hs])

/-- A write of `DMAOR` sets neither of its flags (41_dmac R223). -/
theorem dmaor_flag_of_write {s t : State} (hs : s.cfg.separate = true) {v : Word}
    (ht : writeHandler .dmaor s (s.setReg .dmaor v) = .next t) {j : Nat} (hj : j = 1 ∨ j = 2)
    (hclear : bit (s.reg .dmaor) j = false) : bit (t.reg .dmaor) j = false := by
  rw [writeHandler, checkAll_eq_checkEach] at ht
  rw [checkEach_dmaor (s := (s.setReg .dmaor v).setReg .dmaor _) hs ht, setReg_reg_same, bit_dmaorKept, hclear]
  simp [hj]

theorem dmacNmi_dmaor (s : State) : (dmacNmi s).reg .dmaor = putNmif (s.reg .dmaor) true := by
  have hw : Within { chans := [0, 1, 2, 3] } (s.setReg .dmaor (putNmif (s.reg .dmaor) true)) (dmacNmi s) :=
    within_nmiCancel (within_nmiCancel (within_nmiCancel (within_nmiCancel (within_self _ _)
      (by simp)) (by simp)) (by simp)) (by simp)
  rw [within_reg hw List.not_mem_nil, setReg_reg_same]

/-- An NMI sets `NMIF` alone (41_dmac R220). -/
theorem dmaor_ae_of_nmi {v : Bool} {s t : State} (hx : exec (.setNmi v) s = .next t)
    (hclear : bit (s.reg .dmaor) 2 = false) : bit (t.reg .dmaor) 2 = false := by
  rcases setNmi_next hx with (rfl | rfl) | ⟨-, rfl⟩
  · exact hclear
  · exact hclear
  · rw [dmacNmi_dmaor, requestSource_eq]
    exact (bit_putBit _ 1 true 2).trans hclear

/-! ## The controller's flags -/

/-- The operations that may write the controller's requests and flags. -/
def MayRequest (i : Instr) : Prop :=
  i = .recompute ∨ (∃ x, i = .request x) ∨ (∃ x, i = .unrequest x) ∨ (∃ x, i = .raise x) ∨
  i = .boundary false ∨ (∃ k v, i = .setIrl k v) ∨ (∃ v, i = .setIrln v) ∨ i = .setNmi true ∨
  (∃ n, i = .fire (.dma n)) ∨ (∃ n, i = .fire (.tmu n)) ∨
  (∃ r, i.writesReg = some (.ipr r)) ∨ i.writesReg = some .icr ∨ (∃ n, i.writesReg = some (.tcr n))

theorem target_of_busEffect_requests {cfg : Config} {b : BusAccess} (h : (busEffect cfg b).requests = true) :
    b.write = true ∧ ((∃ r, b.target = some (.ipr r)) ∨ b.target = some .icr ∨ ∃ n, b.target = some (.tcr n)) := by
  unfold busEffect at h
  split at h
  · cases h
  · rename_i hwrite
    refine ⟨Bool.not_eq_false _ ▸ hwrite, ?_⟩
    split at h
    case h_5 q _ _ _ hq =>
      rw [hq]
      simp only [handlerEffect] at h
      split at h
      · exact .inr (.inl rfl)
      · exact .inl ⟨_, rfl⟩
      · exact .inr (.inr ⟨_, rfl⟩)
      · cases h
    all_goals cases h

theorem mayRequest_of_execEffect {cfg : Config} {i : Instr} (h : (execEffect cfg i).requests = true) :
    MayRequest i := by
  unfold MayRequest
  cases hb : i.busAccess with
  | some b =>
    rw [execEffect_busAccess hb] at h
    obtain ⟨hwrite, htarget⟩ := target_of_busEffect_requests h
    rw [writesReg_of_busAccess hb hwrite]
    simp only [htarget, or_true]
  | none =>
    cases i with
    | boundary d => cases d <;> simp [execEffect] at h ⊢
    | setNmi v => cases v <;> simp [execEffect] at h ⊢
    | fire x => cases x <;> simp [execEffect, expiryEffect] at h ⊢
    | recompute | request | unrequest | raise | setIrl | setIrln => simp
    | dmaData | dmaDdt | advance | reset => cases h
    | _ => cases hb

/-- An operation but `RESET` that changes a flag of the controller is one of those that may write it. -/
theorem mayRequest_of_changed {i : Instr} {s t : State} (hne : i ≠ .reset) (hx : exec i s = .next t)
    (hchanged : t.intc.pending ≠ s.intc.pending ∨ t.intc.test ≠ s.intc.test) : MayRequest i := by
  refine mayRequest_of_execEffect (cfg := s.cfg) ?_
  by_contra hquiet
  obtain ⟨-, hpending, htest⟩ := (within_exec hx hne).requests (Bool.not_eq_true _ ▸ hquiet)
  obtain ⟨hpending', htest'⟩ := besideUnits_flags i s t
  rcases hchanged with hchanged | hchanged
  · exact hchanged (hpending.trans hpending')
  · exact hchanged (htest.trans htest')

/-! ## A controller without requests -/

section
variable {s t : State} (hidle : ∀ y : Source, s.intc.requesting[y] = false)
include hidle

theorem raiseSource_pending_of_idle (x : Source) : (raiseSource x s).intc.pending = s.intc.pending := by
  by_cases hacc : Accepts s x
  · obtain ⟨i, he, -, hi⟩ := raiseSource_accepted hacc
    rw [he]
    change i.pending = _
    rw [hi, unrequestSource_of_idle (hidle x), ite_self]
  · rw [raiseSource_declined hacc]

theorem boundary_pending_of_idle (d : Bool) : (boundary d s).intc.pending = s.intc.pending := by
  rcases boundary_cases d s with he | ⟨x, he⟩ <;> rw [he]
  exact raiseSource_pending_of_idle hidle x

theorem setIrl_false_pending_of_idle {k : Fin 4} (hx : exec (.setIrl k false) s = .next t) :
    t.intc.pending = s.intc.pending := by
  change execSetIrl k false s = _ at hx
  unfold execSetIrl at hx
  split at hx
  · cases hx
    rfl
  · split at hx
    · cases hx
      rfl
    · cases hx
      dsimp only
      generalize hs1 : s.setIntc { s.intc with irlLine := s.intc.irlLine.set k false } = s1
      have hidle1 : s1.intc.requesting[srcIrl k] = false := by
        rw [← hs1]
        exact hidle _
      rw [if_neg Bool.false_ne_true, unrequestSource_of_idle hidle1, ← hs1]
      rfl

theorem tcrWritten_pending_of_idle (n : TmuChan) (old : State) :
    (tcrWritten n old s).intc.pending = s.intc.pending := by
  have hcounted : (if tstrStr (s.reg .tstr) n then
      tmuArm n (if (old.timer n).deadline.isSome then s.setReg (.tcnt n) (tmuLive n old) else s)
    else s).intc = s.intc := by
    split
    · rw [tmuArm_intc]
      split <;> rfl
    · rfl
  unfold tcrWritten
  dsimp only
  generalize (if tstrStr (s.reg .tstr) n then
      tmuArm n (if (old.timer n).deadline.isSome then s.setReg (.tcnt n) (tmuLive n old) else s)
    else s) = s1 at hcounted ⊢
  have hidle1 : s1.intc.requesting[srcTuni n] = false := by rw [hcounted]; exact hidle _
  rw [unrequestSource_of_idle hidle1, ite_self, hcounted]

/-- With no source requesting, only the requests of the table set the pending flag. -/
theorem requests_of_pending {i : Instr} (hx : exec i s = .next t) (hi : MayRequest i)
    (hclear : s.intc.pending = false) (hset : t.intc.pending = true) :
    (∃ x, i = .request x) ∨ (∃ k, i = .setIrl k true) ∨ (∃ v, i = .setIrln v) ∨ i = .setNmi true ∨
    (∃ n, i = .fire (.dma n)) ∨ (∃ n, i = .fire (.tmu n)) := by
  have hno : t.intc.pending ≠ s.intc.pending := by rw [hclear, hset]; decide
  rcases hi with rfl | hrequest | ⟨x, rfl⟩ | ⟨x, rfl⟩ | rfl | ⟨k, v, rfl⟩ | hirln | hnmi | hdma | htmu |
    ⟨k, hipr⟩ | hicr | ⟨n, htcr⟩
  · cases hx
    exact absurd rfl hno
  · exact .inl hrequest
  · cases hx
    exact absurd (congrArg (fun u => u.intc.pending) (unrequestSource_of_idle (hidle x))) hno
  · cases hx
    exact absurd (raiseSource_pending_of_idle hidle x) hno
  · cases hx
    exact absurd (boundary_pending_of_idle hidle false) hno
  · cases v with
    | true => exact .inr (.inl ⟨k, rfl⟩)
    | false => exact absurd (setIrl_false_pending_of_idle hidle hx) hno
  · exact .inr (.inr (.inl hirln))
  · exact .inr (.inr (.inr (.inl hnmi)))
  · exact .inr (.inr (.inr (.inr (.inl hdma))))
  · exact .inr (.inr (.inr (.inr (.inr htmu))))
  · obtain ⟨v, ht⟩ := writeHandler_of_writesReg hipr hx (by simp [hardWired])
    cases ht
    exact absurd (priorityWritten_pending k _) hno
  · obtain ⟨v, ht⟩ := writeHandler_of_writesReg hicr hx (by simp [hardWired])
    cases ht
    exact absurd rfl hno
  · obtain ⟨v, ht⟩ := writeHandler_of_writesReg htcr hx (by simp [hardWired])
    cases ht
    exact absurd (tcrWritten_pending_of_idle (s := s.setReg (.tcr n) v) hidle n s) hno

end

/-! ## The table -/

/-- The timer whose expiry sets the flag of a status register (10_state R54). -/
def statusTimer (r : Reg) : Option TimerId :=
  match r with
  | .chcr n => some (.dma n)
  | .rtcsr => some .ref
  | .rcr1 => some .rtc
  | .tcr n => some (.tmu n)
  | _ => none

theorem statusReg_of_statusTimer {r : Reg} {x : TimerId} (h : statusTimer r = some x) : StatusReg r := by
  unfold statusTimer at h
  split at h
  case h_5 => cases h
  all_goals trivial

/-- A status register is written by the expiry of its own timer alone. -/
theorem statusTimer_of_mem_expiryRegs {r : Reg} (hr : StatusReg r) {x : TimerId} (h : r ∈ expiryRegs x) :
    statusTimer r = some x := by
  cases x <;> simp only [expiryRegs, calendarRegs, List.mem_cons, List.not_mem_nil, or_false] at h
  case dma n => rcases h with rfl | rfl <;> first | rfl | cases hr
  case tmu n => rcases h with rfl | rfl <;> first | rfl | cases hr
  case ref => rcases h with rfl | rfl | rfl <;> first | rfl | cases hr
  case rtc => rcases h with rfl | rfl | rfl | rfl | rfl | rfl | rfl | rfl | rfl <;> first | rfl | cases hr

section
variable {i : Instr} {s t : State} (hwf : i.wellFormed s.cfg = true) (hs : s.cfg.separate = true)
  (hne : i ≠ .reset) (hx : exec i s = .next t)
include hwf hs hne hx

/-- The flag of a timer is set by its expiry, or by its register's write. -/
theorem fires_of_flag {r : Reg} {x : TimerId} (hr : statusTimer r = some x) {j : Nat}
    (hclear : bit (s.reg r) j = false) (hset : bit (t.reg r) j = true) : i = .fire x ∨ i.writesReg = some r := by
  have hstatus := statusReg_of_statusTimer hr
  rcases writes_of_flag hwf hs hne hx hstatus hclear hset with ⟨rfl, -⟩ | ⟨y, rfl, hy⟩ | hwrites
  · cases hr
  · have hxy := hr.symm.trans (statusTimer_of_mem_expiryRegs hstatus hy)
    cases hxy
    exact .inl rfl
  · exact .inr hwrites

/-- Of the flags of `DMAOR` an operation sets at most `NMIF`, and only where the line is asserted. -/
theorem nmi_of_dmaor_flag {j : Nat} (hj : j = 1 ∨ j = 2) (hclear : bit (s.reg .dmaor) j = false)
    (hset : bit (t.reg .dmaor) j = true) : j = 1 ∧ i = .setNmi true := by
  rcases writes_of_flag hwf hs hne hx (r := .dmaor) trivial hclear hset with ⟨-, rfl⟩ | ⟨x, -, hmem⟩ | hwrites
  · refine ⟨hj.resolve_right ?_, rfl⟩
    rintro rfl
    cases (dmaor_ae_of_nmi hx hclear).symm.trans hset
  · cases statusTimer_of_mem_expiryRegs (r := .dmaor) trivial hmem
  · obtain ⟨v, ht⟩ := writeHandler_of_writesReg hwrites hx (by simp [hardWired])
    cases (dmaor_flag_of_write hs ht hj hclear).symm.trans hset

end

/-- The registers after `RESET` with the spec's values. -/
theorem resetBlock_reg_default {s : State} (hs : s.cfg.separate = true) (hd : s.cfg.reset = defaultReset) (r : Reg) :
    (resetBlock s).reg r = defaultConfig.resetValue r := by
  rw [resetBlock_reg _ _ hs]
  exact resetValue_congr hd r

theorem intcReset_flags_default {cfg : Config} (hd : cfg.reset = defaultReset) :
    (intcReset cfg).pending = false ∧ (intcReset cfg).test = false := by
  unfold intcReset
  rw [hd]
  exact ⟨rfl, rfl⟩

/-- The spec's reset values have every status flag clear (70_reset_and_hazards R370). -/
theorem resetValue_flags_default :
    bit (defaultConfig.resetValue .dmaor) 2 = false ∧ bit (defaultConfig.resetValue .dmaor) 1 = false ∧
    (∀ n, bit (defaultConfig.resetValue (.chcr n)) 1 = false) ∧ bit (defaultConfig.resetValue .rtcsr) 7 = false ∧
    bit (defaultConfig.resetValue .rtcsr) 2 = false ∧ bit (defaultConfig.resetValue .rcr1) 7 = false ∧
    ∀ n, bit (defaultConfig.resetValue (.tcr n)) 8 = false := by
  decide

/-- Settles O59: `RESET` leaves every flag clear; of any other operation, the effect names what it may write. -/
theorem flagsSetOnlyAsTabled : Obligations.FlagsSetOnlyAsTabled := by
  intro i s t hwf hs hdefault hx
  by_cases hreset : i = .reset
  · subst hreset
    cases hx
    obtain ⟨hpending, htest⟩ := intcReset_flags_default (hdefault rfl)
    obtain ⟨hae, hnmif, hte, hcmf, hovf, hcf, hunf⟩ := resetValue_flags_default
    simp [resetBlock_reg_default hs (hdefault rfl), hpending, htest, hae, hnmif, hte, hcmf, hovf, hcf, hunf]
  · refine ⟨fun hclear hidle hset => ?_, fun hclear hset => ?_, fun hclear => ?_, fun hclear hset => ?_,
      fun n => fires_of_flag hwf hs hreset hx rfl, fires_of_flag hwf hs hreset hx rfl,
      fires_of_flag hwf hs hreset hx rfl, fires_of_flag hwf hs hreset hx rfl,
      fun n => fires_of_flag hwf hs hreset hx rfl⟩
    · exact requests_of_pending hidle hx (mayRequest_of_changed hreset hx (.inl (by simp [hclear, hset]))) hclear hset
    · exact mayRequest_of_changed hreset hx (.inr (by simp [hclear, hset]))
    · by_contra hset
      obtain ⟨hj, -⟩ := nmi_of_dmaor_flag hwf hs hreset hx (.inr rfl) hclear (Bool.not_eq_false _ ▸ hset)
      cases hj
    · exact (nmi_of_dmaor_flag hwf hs hreset hx (.inl rfl) hclear hset).2

end Sys2Proof.Machine
end

section
/-! SUPPORT. Which operations have each part of an effect: that of a register's write, that of an expiry, or one that
names none of the timers, the clock, the pins and the priorities. And what `besideUnits` leaves. -/
namespace Sys2Proof.Machine
open Sys2Proof

/-- A bus operation has the effect of its register's handler, or names cells alone. -/
theorem busEffect_cases {i : Instr} {b : BusAccess} (h : i.busAccess = some b) (cfg : Config) :
    (∃ r, i.writesReg = some r ∧ busEffect cfg b = handlerEffect cfg r) ∨
      ∃ cells, busEffect cfg b = { cells := cells } := by
  unfold busEffect
  split
  · exact .inr ⟨[], rfl⟩
  · rename_i hwrite
    rw [writesReg_of_busAccess h (Bool.not_eq_false _ ▸ hwrite)]
    split
    case h_5 r _ _ _ hr => exact .inl ⟨r, hr, rfl⟩
    all_goals exact .inr ⟨_, rfl⟩

/-- An operation has the effect of its register's handler, or of an expiry, or names no part of these: the TMU
channels, the refresh timer, the clock, the pins, the priorities. -/
theorem execEffect_cases (cfg : Config) (i : Instr) :
    (∃ r, i.writesReg = some r ∧ execEffect cfg i = handlerEffect cfg r) ∨
    (∃ x, i = .fire x) ∨
    ∃ cells chans mem requests, execEffect cfg i =
      { cells := cells, chans := chans, mem := mem, requests := requests } := by
  cases hb : i.busAccess with
  | some b =>
    rw [execEffect_busAccess hb]
    exact (busEffect_cases hb cfg).imp_right fun ⟨cells, h⟩ => .inr ⟨cells, [], false, false, h⟩
  | none =>
    cases i with
    | fire x => exact .inr (.inl ⟨x, rfl⟩)
    | boundary d => cases d <;> exact .inr (.inr ⟨_, _, _, _, rfl⟩)
    | setNmi v => cases v <;> exact .inr (.inr ⟨_, _, _, _, rfl⟩)
    | request | unrequest | recompute | raise | setIrl | setIrln | dmaData | dmaDdt | advance | reset =>
      exact .inr (.inr ⟨_, _, _, _, rfl⟩)
    | _ => cases hb

/-- The operations that may write memory. -/
theorem checks_of_execEffect_mem {cfg : Config} {i : Instr} (h : (execEffect cfg i).mem = true) :
    i.checks ≠ [] ∨ (∃ n, i = .dmaData n) ∨ ∃ n, i = .dmaDdt n := by
  cases hb : i.busAccess with
  | some b =>
    rw [execEffect_busAccess hb, busEffect_mem hb] at h
    exact .inl (of_decide_eq_true h)
  | none =>
    cases i with
    | dmaData n => exact .inr (.inl ⟨n, rfl⟩)
    | dmaDdt n => exact .inr (.inr ⟨n, rfl⟩)
    | boundary d => cases d <;> cases h
    | setNmi v => cases v <;> cases h
    | request | unrequest | recompute | raise | setIrl | setIrln | fire | advance | reset => cases h
    | _ => cases hb

/-- The operations that may write a DMA channel. -/
theorem checks_of_mem_execEffect_chans {cfg : Config} {i : Instr} {n : Chan} (h : n ∈ (execEffect cfg i).chans) :
    n ∈ i.checks ∨ i = .dmaData n ∨ i = .fire (.dma n) ∨ i = .setNmi true := by
  cases hb : i.busAccess with
  | some b =>
    rw [execEffect_busAccess hb, busEffect_chans hb] at h
    exact .inl h
  | none =>
    cases i with
    | dmaData m => exact .inr (.inl (by rw [List.mem_singleton.1 h]))
    | fire x =>
      cases x with
      | dma m => exact .inr (.inr (.inl (by rw [List.mem_singleton.1 h])))
      | _ => cases h
    | setNmi v =>
      cases v with
      | true => exact .inr (.inr (.inr rfl))
      | false => cases h
    | boundary d => cases d <;> cases h
    | request | unrequest | recompute | raise | setIrl | setIrln | dmaDdt | advance | reset => cases h
    | _ => cases hb

/-- An operation's effect names no cell but those of its rule. -/
theorem execEffect_cells_subset (cfg : Config) (i : Instr) : (execEffect cfg i).cells ⊆ cellsWritten cfg i := by
  cases hb : i.busAccess with
  | some b => rw [execEffect_busAccess hb, busEffect_cells hb]; exact List.Subset.refl _
  | none =>
    cases i with
    | raise | dmaDdt | fire => exact List.Subset.refl _
    | boundary d =>
      cases d with
      | true => exact List.nil_subset _
      | false => exact List.Subset.refl _
    | setNmi v =>
      cases v with
      | true => exact List.Subset.refl _
      | false => exact List.nil_subset _
    | request | unrequest | recompute | setIrl | setIrln | dmaData | advance | reset => exact List.nil_subset _
    | _ => cases hb

/-- The parts of the block that no operation changes but an expiry and the writes of the registers they go by. -/
def BlockPart.registerDriven (p : BlockPart) : Bool :=
  match p with
  | .timer _ | .refresh | .clock | .pins => true
  | .widths | .intc | .chan _ => false

/-- The timer whose state a part is. -/
def BlockPart.timerId (p : BlockPart) : Option TimerId :=
  match p with
  | .timer n => some (.tmu n)
  | .refresh => some .ref
  | .clock => some .rtc
  | .widths | .intc | .chan _ | .pins => none

/-- The handlers of such a part are those of the registers it goes by. -/
theorem mem_reads_of_mem_handlerParts {p : BlockPart} (hdriven : p.registerDriven = true) {r : Reg}
    (h : p ∈ handlerParts r) : r ∈ p.reads := by
  cases p with
  | widths | intc | chan => cases hdriven
  | timer n | refresh | clock | pins =>
    unfold handlerParts at h
    split at h <;> simp_all [BlockPart.reads]

/-- What may change such a part. -/
theorem writes_or_fires_of_named {p : BlockPart} (hdriven : p.registerDriven = true) {cfg : Config} {i : Instr}
    (h : p.Named (execEffect cfg i)) :
    (∃ r ∈ p.reads, i.writesReg = some r) ∨ ∃ x, p.timerId = some x ∧ i = .fire x := by
  rcases execEffect_cases cfg i with ⟨r, hr, he⟩ | ⟨x, rfl⟩ | ⟨cells, chans, mem, requests, he⟩
  · rw [he] at h
    exact .inl ⟨r, mem_reads_of_mem_handlerParts hdriven (named_handlerEffect h), hr⟩
  · refine .inr ⟨x, ?_, rfl⟩
    change p.Named (expiryEffect cfg x) at h
    cases p with
    | widths | intc | chan => cases hdriven
    | timer n | refresh | clock | pins =>
      cases x <;> simp_all [BlockPart.Named, BlockPart.timerId, expiryEffect]
  · rw [he] at h
    cases p with
    | widths | intc | chan => cases hdriven
    | timer n | refresh | clock | pins => cases h

/-- An operation that does neither leaves such a part unnamed. -/
theorem not_named_of_registerDriven {p : BlockPart} (hdriven : p.registerDriven = true) {i : Instr}
    (hwrites : ∀ r ∈ p.reads, i.writesReg ≠ some r) (hfire : ∀ x, p.timerId = some x → i ≠ .fire x)
    (cfg : Config) : ¬p.Named (execEffect cfg i) := by
  intro hnamed
  rcases writes_or_fires_of_named hdriven hnamed with ⟨r, hr, h⟩ | ⟨x, hx, h⟩
  · exact hwrites r hr h
  · exact hfire x hx h

/-- The priorities are written by the priority registers' writes alone. -/
theorem writesReg_of_execEffect_prio {cfg : Config} {i : Instr} (h : (execEffect cfg i).prio = true) :
    ∃ k, i.writesReg = some (.ipr k) := by
  rcases execEffect_cases cfg i with ⟨r, hr, he⟩ | ⟨x, rfl⟩ | ⟨cells, chans, mem, requests, he⟩
  · rw [he] at h
    cases r with
    | ipr k => exact ⟨k, hr⟩
    | _ => cases h
  · cases h
  · rw [he] at h
    cases h

/-! ## What `besideUnits` leaves -/

theorem besideUnits_mem (i : Instr) (s t : State) : (besideUnits i s t).mem = s.mem := by
  unfold besideUnits
  split <;> rfl

theorem besideUnits_cell (i : Instr) (s t : State) (c : Nat) : (besideUnits i s t).cell c = s.cell c := by
  unfold besideUnits
  split <;> rfl

theorem besideUnits_units (i : Instr) (s t : State) :
    (besideUnits i s t).dma = s.dma ∧ (besideUnits i s t).tmu = s.tmu ∧
    (besideUnits i s t).refresh = s.refresh ∧ (besideUnits i s t).rtcDeadline = s.rtcDeadline ∧
    (besideUnits i s t).gpio = s.gpio ∧ (besideUnits i s t).intc.prio = s.intc.prio := by
  unfold besideUnits
  split <;> exact ⟨rfl, rfl, rfl, rfl, rfl, rfl⟩

theorem besideUnits_irlLine {i : Instr} (h : ∀ k v, i ≠ .setIrl k v) (s t : State) :
    (besideUnits i s t).intc.irlLine = s.intc.irlLine := by
  unfold besideUnits
  split
  case h_3 k v => exact absurd rfl (h k v)
  all_goals rfl

theorem besideUnits_irlLevel {i : Instr} (h : ∀ v, i ≠ .setIrln v) (s t : State) :
    (besideUnits i s t).intc.irlLevel = s.intc.irlLevel := by
  unfold besideUnits
  split
  case h_4 v => exact absurd rfl (h v)
  all_goals rfl

theorem besideUnits_nmiLine {i : Instr} (h : ∀ v, i ≠ .setNmi v) (s t : State) :
    (besideUnits i s t).intc.nmiLine = s.intc.nmiLine := by
  unfold besideUnits
  split
  case h_5 v => exact absurd rfl (h v)
  all_goals rfl

end Sys2Proof.Machine
end

section
/-! PROOFS of `MemoryFrameOfOthers` (O53), `RegisterFrame` (O56) and `UnitFrame` (O58): every operation stays within
its effect, and an effect names memory, a cell or a unit only where the operation's rule does. -/
namespace Sys2Proof.Machine
open Sys2Proof

/-- Settles O53: `RESET` leaves memory, and the effect of any other operation of this kind does not name it. -/
theorem memoryFrameOfOthers : Obligations.MemoryFrameOfOthers := by
  intro i s t hx hchecks hdata hddt x
  suffices hmem : t.mem = s.mem by rw [hmem]
  by_cases hreset : i = .reset
  · subst hreset
    cases hx
    rfl
  · refine ((within_exec hx hreset).mem ?_).trans (besideUnits_mem i s t)
    rw [← Bool.not_eq_true]
    intro hnamed
    rcases checks_of_execEffect_mem hnamed with h | ⟨n, h⟩ | ⟨n, h⟩
    · exact h hchecks
    · exact hdata n h
    · exact hddt n h

/-- Settles O56: the cells of an operation's effect are cells of its rule. -/
theorem registerFrame : Obligations.RegisterFrame := by
  intro i s t hx hreset c hc
  have hnot : c ∉ (execEffect s.cfg i).cells := fun hmem => hc (execEffect_cells_subset s.cfg i hmem)
  exact ((within_exec hx hreset).cells c hnot).trans (besideUnits_cell i s t c)

/-- Settles O58, unit by unit: what names a unit in an operation's effect. -/
theorem unitFrame : Obligations.UnitFrame := by
  intro i s t hx hreset
  have hw := within_exec hx hreset
  obtain ⟨hdma, htmu, hrefresh, hrtc, hgpio, hprio⟩ := besideUnits_units i s t
  refine ⟨fun n hchecks hdata hfire hnmi => ?_, fun n htstr htcnt htcr hfire => ?_, fun hwrites hfire => ?_,
    fun hrcr2 hfire => ?_, fun hwrites => ?_, fun hipr => ?_, fun h => hw.lines.1.trans (besideUnits_irlLine h s t),
    fun h => hw.lines.2.1.trans (besideUnits_irlLevel h s t), fun h => hw.lines.2.2.trans (besideUnits_nmiLine h s t)⟩
  · refine (hw.chans n fun hnamed => ?_).trans (by unfold State.chan; rw [hdma])
    rcases checks_of_mem_execEffect_chans hnamed with h | h | h | h
    exacts [hchecks h, hdata h, hfire h, hnmi h]
  · refine (hw.timers n (not_named_of_registerDriven (p := .timer n) rfl ?_ (by rintro x ⟨⟩; exact hfire) _)).trans
      (by unfold State.timer; rw [htmu])
    simp [BlockPart.reads, htstr, htcnt, htcr]
  · refine (hw.refresh (Bool.eq_false_iff.2 (not_named_of_registerDriven (p := .refresh) rfl ?_
      (by rintro x ⟨⟩; exact hfire) _))).trans hrefresh
    simpa [BlockPart.reads] using hwrites
  · refine (hw.rtc (Bool.eq_false_iff.2 (not_named_of_registerDriven (p := .clock) rfl ?_
      (by rintro x ⟨⟩; exact hfire) _))).trans hrtc
    simpa [BlockPart.reads] using hrcr2
  · refine (hw.gpio (Bool.eq_false_iff.2 (not_named_of_registerDriven (p := .pins) rfl ?_ nofun _))).trans hgpio
    simpa [BlockPart.reads] using hwrites
  · refine (hw.prio (Bool.eq_false_iff.2 fun hnamed => ?_)).trans hprio
    obtain ⟨k, hk⟩ := writesReg_of_execEffect_prio hnamed
    exact hipr k hk

end Sys2Proof.Machine
end

section
/-! SUPPORT. Words with the `k` lowest bits set, as the masks of lanes and the alignment of DMA addresses use them. -/
namespace Sys2Proof.Machine
open Sys2Proof

theorem bit_ofNat_two_pow_sub_one (k j : Nat) :
    bit (BitVec.ofNat 32 (2 ^ k - 1)) j = (decide (j < 32) && decide (j < k)) := by
  rw [bit, BitVec.getLsbD_ofNat, Nat.testBit_two_pow_sub_one]

/-- To clear the `k` lowest bits is to round down to a multiple of `2 ^ k`. -/
theorem toNat_clearLow (v : Word) (k : Nat) :
    (v &&& ~~~(BitVec.ofNat 32 (2 ^ k - 1))).toNat = v.toNat - v.toNat % 2 ^ k := by
  have hshift : v &&& ~~~(BitVec.ofNat 32 (2 ^ k - 1)) = (v >>> k) <<< k := by
    apply BitVec.eq_of_getLsbD_eq
    intro j hj
    have hlow := bit_ofNat_two_pow_sub_one k j
    unfold bit at hlow
    rw [BitVec.getLsbD_and, BitVec.getLsbD_not, hlow, BitVec.getLsbD_shiftLeft, BitVec.getLsbD_ushiftRight]
    by_cases hk : j < k
    · simp [hk]
    · simp [hj, hk, Nat.add_sub_cancel' (Nat.le_of_not_lt hk)]
  have hle := Nat.div_mul_le_self v.toNat (2 ^ k)
  have hdiv := Nat.div_add_mod' v.toNat (2 ^ k)
  have hlt := v.isLt
  rw [hshift, BitVec.toNat_shiftLeft, BitVec.toNat_ushiftRight, Nat.shiftLeft_eq, Nat.shiftRight_eq_div_pow,
    Nat.mod_eq_of_lt (by omega)]
  omega

end Sys2Proof.Machine
end

section
/-! PROOF of `WindowTestIsExact` (O28). A run's test finds an access in the window only where there is one, which
`runMeetsWindow_of_runFree` says; here the converse: from an access in the window the span test, in the same window
part and turn of the address space, finds that access or one before it. -/
namespace Sys2Proof.Machine
open Sys2Proof

/-- The DMA's units are powers of two. -/
theorem two_pow_of_unit {z : Nat} (h : z ∈ [1, 2, 4, 8, 32]) : ∃ k, z = 2 ^ k := by
  simp only [List.mem_cons, List.not_mem_nil, or_false] at h
  rcases h with rfl | rfl | rfl | rfl | rfl
  exacts [⟨0, rfl⟩, ⟨1, rfl⟩, ⟨2, rfl⟩, ⟨3, rfl⟩, ⟨5, rfl⟩]

theorem dmaAlign_toNat (mask a : Word) {z : Nat} (h : z ∈ [1, 2, 4, 8, 32]) :
    (dmaAlign mask a z).toNat = (a &&& mask).toNat - (a &&& mask).toNat % z := by
  obtain ⟨k, rfl⟩ := two_pow_of_unit h
  exact toNat_clearLow _ k

theorem inWindow_iff {cfg : Config} {a : Word} :
    inWindow cfg a = true ↔ ∃ w ∈ cfg.map.window, w.1.toNat ≤ a.toNat ∧ a.toNat ≤ w.2.toNat := by
  simp only [inWindow, List.any_eq_true, Bool.and_eq_true, decide_eq_true_eq]

/-- A run of which an access lies in the window meets the window, for runs that end within two turns of the address
space. -/
theorem spanMeetsWindow_of_inWindow {cfg : Config} {lo z cnt k : Nat} (hz : 1 ≤ z) (hk : k < cnt)
    (hend : lo + k * z < 0x200000000) (h : inWindow cfg (BitVec.ofNat 32 (lo + k * z)) = true) :
    spanMeetsWindow cfg lo z cnt = true := by
  obtain ⟨w, hw, hfirst, hlast⟩ := inWindow_iff.1 h
  rw [BitVec.toNat_ofNat] at hfirst hlast
  obtain ⟨turn, hturn, haddr⟩ : ∃ turn ∈ [0, 0x100000000], lo + k * z = (lo + k * z) % 2 ^ 32 + turn := by
    by_cases hwrap : lo + k * z < 2 ^ 32
    · exact ⟨0, by simp, by omega⟩
    · exact ⟨0x100000000, by simp, by omega⟩
  have hle : (w.1.toNat + turn - lo + (z - 1)) / z ≤ k := by
    rw [Nat.div_le_iff_le_mul_add_pred hz, Nat.mul_comm z k]
    omega
  have hmul := Nat.mul_le_mul_right z hle
  simp only [spanMeetsWindow, List.any_eq_true, Bool.and_eq_true, decide_eq_true_eq]
  exact ⟨w, hw, turn, hturn, by omega, by omega⟩

/-- A falling run, from its lowest address up. -/
theorem unitAddr_decrement_reversed {base : Word} {z cnt k : Nat} (hk : k < cnt) (hspan : cnt * z ≤ 0x100000000) :
    unitAddr base z .decrement k = BitVec.ofNat 32 (base.toNat + 0x100000000 - cnt * z + (cnt - 1 - k) * z) := by
  have hsum : (k + 1) * z + (cnt - 1 - k) * z = cnt * z := by
    rw [← Nat.add_mul]
    congr 1
    omega
  have hbase := base.isLt
  apply BitVec.eq_of_toNat_eq
  rw [unitAddr, BitVec.toNat_sub, BitVec.toNat_ofNat, BitVec.toNat_ofNat]
  generalize (k + 1) * z = m at hsum
  omega

/-- The test of a run of accesses finds one where there is one. -/
theorem strideMeetsWindow_of_inWindow {cfg : Config} {base : Word} {z cnt k : Nat} {inc : Inc} (hz : 1 ≤ z)
    (hspan : cnt * z ≤ 0x100000000) (hk : k < cnt) (h : inWindow cfg (unitAddr base z inc k) = true) :
    strideMeetsWindow cfg base z inc cnt = true := by
  have hbase := base.isLt
  cases inc with
  | fixed | illegal =>
    rw [strideMeetsWindow, Bool.and_eq_true, decide_eq_true_eq]
    exact ⟨Nat.zero_lt_of_lt hk, h⟩
  | increment =>
    have hlt : k * z < cnt * z := Nat.mul_lt_mul_of_pos_right hk hz
    refine spanMeetsWindow_of_inWindow hz hk (by omega) ?_
    rwa [BitVec.ofNat_add, BitVec.ofNat_toNat, BitVec.setWidth_eq]
  | decrement =>
    have hlt : (cnt - 1 - k) * z < cnt * z := Nat.mul_lt_mul_of_pos_right (by omega) hz
    rw [unitAddr_decrement_reversed hk hspan] at h
    exact spanMeetsWindow_of_inWindow hz (by omega) (by omega) h

/-- A run with a unit in the window meets the window. -/
theorem runMeetsWindow_of_unit {cfg : Config} {base : Word} {z cnt k : Nat} {inc : Inc} (hz : 1 ≤ z)
    (hspan : cnt * z ≤ 0x100000000) (hk : k < cnt) (h : ¬UnitFree cfg (unitAddr base z inc k) z) :
    runMeetsWindow cfg base z inc cnt = true := by
  obtain ⟨j, hj, hin⟩ := List.any_eq_true.1 (unitMeetsWindow_eq_true.2 h)
  rw [← unitAddr_offset] at hin
  exact List.any_eq_true.2 ⟨j, hj, strideMeetsWindow_of_inWindow hz hspan hk hin⟩

/-- Settles O28: an aligned address by its bits, the test of a run by both directions. -/
theorem windowTestIsExact : Obligations.WindowTestIsExact := by
  refine ⟨fun mask a z hz => dmaAlign_toNat mask a hz,
    fun cfg base z inc cnt hz hspan => ⟨fun hmeets hfree => ?_, fun hmet => ?_⟩⟩
  · cases (runMeetsWindow_of_runFree hz hspan hfree).symm.trans hmeets
  · unfold RunFree at hmet
    push Not at hmet
    obtain ⟨k, hk, hunit⟩ := hmet
    exact runMeetsWindow_of_unit hz hspan hk hunit

end Sys2Proof.Machine
end

section
/-! PROOF of `LanesFollowWidthAndOrder` (O47). The lane of an access is the `8 * bytes` bits from its shift; a write
merges and a read extracts just these. -/
namespace Sys2Proof.Machine
open Sys2Proof

theorem laneOf_eq (a : Word) : laneOf a = a.toNat % 4 := by
  simp [laneOf, field]

/-- The bits of the lane. -/
theorem bit_laneMask (e : Endian) (w : Width) (a : Word) (j : Nat) :
    bit (laneMask e w a) j =
      (decide (j < 32) && decide (laneShift e w a ≤ j ∧ j < laneShift e w a + 8 * w.bytes)) := by
  have hones : laneMask e w a = BitVec.ofNat 32 (2 ^ (8 * w.bytes) - 1) <<< laneShift e w a := by
    cases w <;> rfl
  have hlow := bit_ofNat_two_pow_sub_one (8 * w.bytes) (j - laneShift e w a)
  unfold bit at hlow ⊢
  rw [hones, BitVec.getLsbD_shiftLeft, hlow, Bool.eq_iff_iff]
  simp only [Bool.and_eq_true, Bool.not_eq_true', decide_eq_true_eq, decide_eq_false_iff_not]
  omega

/-- A write takes the bits of the lane from the data, from bit 0 on, and the others from the cell. -/
theorem bit_laneMerge (e : Endian) (w : Width) (a old data : Word) {j : Nat} (hj : j < 32) :
    bit (laneMerge e w a old data) j =
      if laneShift e w a ≤ j ∧ j < laneShift e w a + 8 * w.bytes then bit data (j - laneShift e w a)
      else bit old j := by
  have hmask := bit_laneMask e w a j
  unfold bit at hmask ⊢
  rw [laneMerge, BitVec.getLsbD_or, BitVec.getLsbD_and, BitVec.getLsbD_and, BitVec.getLsbD_not,
    BitVec.getLsbD_shiftLeft, hmask]
  split
  · rename_i hlane
    simp [hj, hlane, Nat.not_lt.2 hlane.1]
  · rename_i hlane
    simp [hj, hlane]

/-- A read answers the bits of the lane, from bit 0 on, and 0 above them. -/
theorem bit_laneRead (e : Endian) (w : Width) (a v : Word) (j : Nat) :
    bit (laneRead e w a v) j = (decide (j < 8 * w.bytes) && bit v (laneShift e w a + j)) := by
  have hmask := bit_laneMask e w a (laneShift e w a + j)
  unfold bit at hmask ⊢
  rw [laneRead, BitVec.getLsbD_ushiftRight, BitVec.getLsbD_and, hmask]
  by_cases hin : laneShift e w a + j < 32
  · simp [hin, Bool.and_comm]
  · simp [BitVec.getLsbD_of_ge v _ (Nat.le_of_not_lt hin)]

/-- The lanes that a width allows. -/
theorem laneOk_iff (w : Width) (a : Word) :
    laneOk w a = true ↔ match w with
      | .byte => True
      | .word => a.toNat % 4 = 0 ∨ a.toNat % 4 = 2
      | .long => a.toNat % 4 = 0 := by
  cases w <;> simp only [laneOk, laneOf_eq, beq_iff_eq]
  omega

/-- Settles O47: the lanes by the width, each bit by the lane's shift. -/
theorem lanesFollowWidthAndOrder : Obligations.LanesFollowWidthAndOrder := by
  rintro e w a old data v k n sh rfl hn hsh
  refine ⟨laneOk_iff w a, fun hok => ?_⟩
  have hbits : n = 8 * w.bytes := by
    rw [hn]
    cases w <;> rfl
  have hshift : sh = laneShift e w a := by
    rw [hsh]
    cases w with
    | byte | word => cases e <;> simp [laneShift, laneOf_eq, Width.bytes]
    | long =>
      have hlane : a.toNat % 4 = 0 := (laneOk_iff .long a).1 hok
      cases e <;> simp [laneShift, laneOf_eq, hlane, Width.bytes]
  rw [hbits, hshift]
  exact ⟨fun j hj => bit_laneMerge e w a old data hj, fun j => bit_laneRead e w a v j⟩

end Sys2Proof.Machine
end

section
/-! SUPPORT. The two formats row by row (30_encoding R114, R115): what the decoder answers for a word put together
from its fields, and which fields a word that decodes to an operation has. -/
namespace Sys2Proof.Machine
open Sys2Proof

/-! ## Operands of a port word -/

/-- A field in its place, the other bits 0, is the word under the field's mask. -/
theorem ofNat_field (v : Word) (lo n : Nat) :
    BitVec.ofNat 32 (2 ^ lo * (field v lo n).toNat) = v &&& (BitVec.ofNat 32 (2 ^ n - 1) <<< lo) := by
  apply BitVec.eq_of_getLsbD_eq
  intro j hj
  have hmask := bit_ofNat_two_pow_sub_one n (j - lo)
  unfold bit at hmask
  rw [BitVec.getLsbD_ofNat, Nat.testBit_two_pow_mul, BitVec.testBit_toNat, field, BitVec.getLsbD_extractLsb',
    BitVec.getLsbD_and, BitVec.getLsbD_shiftLeft, hmask]
  by_cases hlo : lo ≤ j
  · have hin : j - lo < 32 := by omega
    simp [hj, hlo, hin, Nat.not_lt.2 hlo, Nat.add_sub_cancel' hlo, Bool.and_comm]
  · simp [hlo, Nat.lt_of_not_le hlo]

theorem ofNat_field_zero (v : Word) (n : Nat) :
    BitVec.ofNat 32 (field v 0 n).toNat = v &&& BitVec.ofNat 32 (2 ^ n - 1) := by
  simpa using ofNat_field v 0 n

theorem argOfBool_bit (v : Word) : argOfBool (bit v 0) = v &&& 1 := by
  have hwide : ∀ b, argOfBool b = (BitVec.ofBool b).setWidth 32 := by decide
  rw [hwide, bit]
  exact BitVec.and_one_eq_setWidth_ofBool_getLsbD.symm

theorem bit_argOfBool (b : Bool) : bit (argOfBool b) 0 = b := by
  revert b
  decide

theorem decodeChan_ofNat (n : Chan) : decodeChan (BitVec.ofNat 32 n.val) = n := by
  revert n
  decide

/-- The line number and the level of `SET_IRL` stand in separate bits of `arg`. -/
theorem setIrl_fields (k : Fin 4) (v : Bool) :
    (field (BitVec.ofNat 32 (0x100 * k.val) ||| argOfBool v) 8 2).toNat = k.val ∧
      bit (BitVec.ofNat 32 (0x100 * k.val) ||| argOfBool v) 0 = v := by
  revert k v
  decide

/-- The source of `arg`, where it is one (30_encoding R117). -/
theorem decodeSource_eq_ok {cfg : Config} {arg : Word} {k : Source → Instr} {i : Instr}
    (h : decodeSource cfg arg k = .ok i) : ∃ x : Source, i = k x ∧ x.val = (field arg 0 6).toNat := by
  unfold decodeSource at h
  split at h
  · exact ⟨_, (Except.ok.inj h).symm, rfl⟩
  · cases h

theorem decodeSource_error_iff (cfg : Config) (arg : Word) (k : Source → Instr) :
    (∃ e, decodeSource cfg arg k = .error e) ↔ cfg.nSrc ≤ (field arg 0 6).toNat := by
  unfold decodeSource
  split
  · rename_i hlt
    simpa using hlt
  · rename_i hge
    simpa using hge

/-- Timer ids 0 to 8 are the codes of the nine timers, the others are refused (30_encoding R115, R117). -/
theorem decodeTimer_cases (t : BitVec 4) :
    (∃ x : TimerId, decodeTimer t = .ok x ∧ x.code = t.toNat ∧ t.toNat ≤ 8) ∨
      (decodeTimer t = .error (.badTimer t) ∧ 8 < t.toNat) := by
  unfold decodeTimer
  split_ifs with hdma htmu href hrtc
  · exact .inl ⟨_, rfl, rfl, by omega⟩
  · exact .inl ⟨_, rfl, by simp only [TimerId.code]; omega, by omega⟩
  · exact .inl ⟨_, rfl, href ▸ rfl, by simp [href]⟩
  · exact .inl ⟨_, rfl, hrtc ▸ rfl, by simp [hrtc]⟩
  · exact .inr ⟨rfl, by bv_omega⟩

theorem decodeTimer_eq_ok {t : BitVec 4} {x : TimerId} (h : decodeTimer t = .ok x) : x.code = t.toNat := by
  rcases decodeTimer_cases t with ⟨y, hy, hcode, -⟩ | ⟨he, -⟩
  · cases hy.symm.trans h
    exact hcode
  · cases he.symm.trans h

theorem decodeTimer_error_iff (t : BitVec 4) : (∃ e, decodeTimer t = .error e) ↔ 8 < t.toNat := by
  rcases decodeTimer_cases t with ⟨x, hx, -, hle⟩ | ⟨he, hlt⟩
  · simpa [hx] using hle
  · simpa [he] using hlt

theorem map_eq_error_iff {α β : Type} (f : α → β) (r : Except DecodeError α) :
    (∃ e, r.map f = .error e) ↔ ∃ e, r = .error e := by
  cases r <;> simp [Except.map]

theorem map_eq_ok_iff {α β : Type} (f : α → β) (r : Except DecodeError α) (y : β) :
    r.map f = .ok y ↔ ∃ x, r = .ok x ∧ f x = y := by
  cases r <;> simp [Except.map]

/-! ## Format P -/

/-- The rows of format P (30_encoding R115): what a word with this `op` and `arg` stands for. -/
inductive PortRow (cfg : Config) (arg : Word) : Byte → Except DecodeError Instr → Prop
  | request : PortRow cfg arg 0x01 (decodeSource cfg arg .request)
  | unrequest : PortRow cfg arg 0x02 (decodeSource cfg arg .unrequest)
  | recompute : PortRow cfg arg 0x03 (.ok .recompute)
  | boundary : PortRow cfg arg 0x04 (.ok (.boundary (bit arg 0)))
  | raise : PortRow cfg arg 0x05 (decodeSource cfg arg .raise)
  | setIrl : PortRow cfg arg 0x10 (.ok (.setIrl ⟨(field arg 8 2).toNat, (field arg 8 2).isLt⟩ (bit arg 0)))
  | setIrln : PortRow cfg arg 0x11 (.ok (.setIrln arg))
  | setNmi : PortRow cfg arg 0x12 (.ok (.setNmi (bit arg 0)))
  | dmaData : PortRow cfg arg 0x20 (.ok (.dmaData (decodeChan arg)))
  | dmaDdt : PortRow cfg arg 0x21 (.ok (.dmaDdt (decodeChan arg)))
  | advance : PortRow cfg arg 0x30 (.ok (.advance arg))
  | fire : PortRow cfg arg 0x31 ((decodeTimer (field arg 0 4)).map .fire)
  | reset : PortRow cfg arg 0x3F (.ok .reset)
  | unlisted {op : Byte} (h : op ∉ portOps) : PortRow cfg arg op (.error (.unknownOp op))

theorem decodeP_unlisted {op : Byte} (h : op ∉ portOps) (cfg : Config) (arg : Word) :
    decodeP cfg (op ++ arg) = .error (.unknownOp op) := by
  simp only [portOps, List.mem_cons, List.not_mem_nil, or_false, not_or] at h
  simp only [decodeP, portWord_op, h, if_false]

/-- The decoder answers the row of the word's `op`. -/
theorem decodeP_of_portRow {cfg : Config} {op : Byte} {arg : Word} {r : Except DecodeError Instr}
    (h : PortRow cfg arg op r) : decodeP cfg (op ++ arg) = r := by
  cases h with
  | unlisted h => exact decodeP_unlisted h cfg arg
  | _ => simp [decodeP, portWord_op, portWord_arg]

theorem exists_portRow (cfg : Config) (op : Byte) (arg : Word) : ∃ r, PortRow cfg arg op r := by
  by_cases h : op ∈ portOps
  · simp only [portOps, List.mem_cons, List.not_mem_nil, or_false] at h
    rcases h with rfl | rfl | rfl | rfl | rfl | rfl | rfl | rfl | rfl | rfl | rfl | rfl | rfl
    exacts [⟨_, .request⟩, ⟨_, .unrequest⟩, ⟨_, .recompute⟩, ⟨_, .boundary⟩, ⟨_, .raise⟩, ⟨_, .setIrl⟩,
      ⟨_, .setIrln⟩, ⟨_, .setNmi⟩, ⟨_, .dmaData⟩, ⟨_, .dmaDdt⟩, ⟨_, .advance⟩, ⟨_, .fire⟩, ⟨_, .reset⟩]
  · exact ⟨_, .unlisted h⟩

/-- The word of a port operation decodes to it (30_encoding R115). -/
theorem decode_encode_port {cfg : Config} {i : Instr} (h : i.busAccess = none) (hs : i.sourceFits cfg = true) :
    decode cfg (encode i) = .ok i := by
  cases i with
  | request x => exact (decodeP_of_portRow .request).trans (decodeSource_code (of_decide_eq_true hs) _)
  | unrequest x => exact (decodeP_of_portRow .unrequest).trans (decodeSource_code (of_decide_eq_true hs) _)
  | raise x => exact (decodeP_of_portRow .raise).trans (decodeSource_code (of_decide_eq_true hs) _)
  | recompute => exact decodeP_of_portRow (cfg := cfg) (arg := 0) .recompute
  | boundary d => exact (decodeP_of_portRow .boundary).trans (by rw [bit_argOfBool])
  | setIrl k v =>
    obtain ⟨hk, hv⟩ := setIrl_fields k v
    refine (decodeP_of_portRow .setIrl).trans ?_
    rw [hv]
    exact congrArg (fun j => Except.ok (Instr.setIrl j v)) (Fin.ext hk)
  | setIrln v => exact decodeP_of_portRow .setIrln
  | setNmi v => exact (decodeP_of_portRow .setNmi).trans (by rw [bit_argOfBool])
  | dmaData n => exact (decodeP_of_portRow .dmaData).trans (by rw [decodeChan_ofNat])
  | dmaDdt n => exact (decodeP_of_portRow .dmaDdt).trans (by rw [decodeChan_ofNat])
  | advance dt => exact decodeP_of_portRow .advance
  | fire t => exact (decodeP_of_portRow .fire).trans (by rw [decodeTimer_code]; rfl)
  | reset => exact decodeP_of_portRow (cfg := cfg) (arg := 0) .reset
  | _ => cases h

/-- The word of the operation that a row stands for has the row's `op` and the operand bits of `arg`. -/
theorem encode_of_portRow {cfg : Config} {op : Byte} {arg : Word} {r : Except DecodeError Instr} {i : Instr}
    (h : PortRow cfg arg op r) (hi : r = .ok i) : encode i = encodeP op (arg &&& argMask op) := by
  have hsource : ∀ x : Source, x.val = (field arg 0 6).toNat → BitVec.ofNat 32 x.val = arg &&& 0x3F :=
    fun x hx => hx ▸ ofNat_field_zero arg 6
  have hnone : (0 : Word) = arg &&& 0 := BitVec.and_zero.symm
  have hall : arg = arg &&& 0xFFFFFFFF := BitVec.and_allOnes.symm
  cases h with
  | request | unrequest | raise =>
    obtain ⟨x, rfl, hx⟩ := decodeSource_eq_ok hi
    exact congrArg (encodeP _) (hsource x hx)
  | recompute | reset =>
    cases hi
    exact congrArg (encodeP _) hnone
  | boundary | setNmi =>
    cases hi
    exact congrArg (encodeP _) (argOfBool_bit arg)
  | setIrl =>
    cases hi
    have hline : BitVec.ofNat 32 (0x100 * (field arg 8 2).toNat) = arg &&& 0x300 := ofNat_field arg 8 2
    have hboth : BitVec.ofNat 32 (0x100 * (field arg 8 2).toNat) ||| argOfBool (bit arg 0) = arg &&& 0x301 := by
      rw [hline, argOfBool_bit, ← BitVec.and_or_distrib_left]
      rfl
    exact congrArg (encodeP _) hboth
  | setIrln | advance =>
    cases hi
    exact congrArg (encodeP _) hall
  | dmaData | dmaDdt =>
    cases hi
    exact congrArg (encodeP _) (ofNat_field_zero arg 2)
  | fire =>
    obtain ⟨t, ht, rfl⟩ := (map_eq_ok_iff _ _ _).1 hi
    have hcode : BitVec.ofNat 32 t.code = arg &&& 0xF := decodeTimer_eq_ok ht ▸ ofNat_field_zero arg 4
    exact congrArg (encodeP _) hcode
  | unlisted => cases hi

/-! ## Format B -/

/-- The operation that an access names (30_encoding R114): of a named register, or a default. -/
def accessInstr (b : BusAccess) : Instr :=
  match b.write, b.target with
  | true, some r => .ofWrite b.width b.addr b.data r
  | true, none => .wrDefault b.width b.addr b.data
  | false, some r => .ofRead b.width b.addr r
  | false, none => .rdDefault b.width b.addr

theorem accessInstr_of_busAccess {i : Instr} {b : BusAccess} (h : i.busAccess = some b) : accessInstr b = i :=
  instr_of_busAccess h

theorem busAccess_accessInstr_write {b : BusAccess} (h : b.write = true) : (accessInstr b).busAccess = some b := by
  obtain ⟨_, target, w, a, d⟩ := b
  cases h
  cases target with
  | none => rfl
  | some r => exact busAccess_ofWrite w a d r

/-- A read has no data operand. -/
theorem busAccess_accessInstr_read {b : BusAccess} (h : b.write = false) :
    (accessInstr b).busAccess = some { b with data := 0 } := by
  obtain ⟨_, target, w, a, d⟩ := b
  cases h
  cases target with
  | none => rfl
  | some r => exact busAccess_ofRead w a r

theorem encode_of_busAccess {i : Instr} {b : BusAccess} (h : i.busAccess = some b) : encode i = encodeB b := by
  unfold encode
  rw [h]

/-- The access of a word of format B whose width code is that of `w`. -/
def wordAccess (cfg : Config) (x : BitVec 67) (w : Width) : BusAccess :=
  ⟨x.getLsbD 66, cfg.ofIndex (regIndex cfg (x.extractLsb' 32 32)), w, x.extractLsb' 32 32, x.extractLsb' 0 32⟩

theorem decodeB_eq (cfg : Config) (x : BitVec 67) :
    decodeB cfg x = (decodeWidth (x.extractLsb' 64 2)).map fun w => accessInstr (wordAccess cfg x w) := rfl

theorem code_of_decodeWidth {c : BitVec 2} {w : Width} (h : decodeWidth c = .ok w) : w.code = c := by
  have hc : c = 0 ∨ c = 1 ∨ c = 2 ∨ c = 3 := by
    clear h
    revert c
    decide
  rcases hc with rfl | rfl | rfl | rfl <;> cases h <;> rfl

/-- The word of an access whose address has the named register decodes to the access's operation. -/
theorem decode_encodeB {cfg : Config} {b : BusAccess} (h : cfg.ofIndex (regIndex cfg b.addr) = b.target) :
    decode cfg (encodeB b) = .ok (accessInstr b) := by
  obtain ⟨hwrite, hcode, haddr, hdata⟩ := encodeB_fields b
  change decodeB cfg _ = _
  rw [decodeB_eq, hcode, decodeWidth_code]
  simp only [wordAccess, hwrite, haddr, hdata, h]
  rfl

/-- A word of format B is its four fields. -/
theorem busWord_eta (x : BitVec 67) :
    BitVec.ofBool (x.getLsbD 66) ++ x.extractLsb' 64 2 ++ x.extractLsb' 32 32 ++ x.extractLsb' 0 32 = x := by
  have htop : BitVec.ofBool (x.getLsbD 66) = x.extractLsb' 66 1 := by
    apply BitVec.eq_of_getLsbD_eq
    intro j hj
    obtain rfl : j = 0 := by omega
    simp
  rw [htop, BitVec.extractLsb'_append_extractLsb'_eq_extractLsb' (start₁ := 64) (len₁ := 2) rfl,
    BitVec.extractLsb'_append_extractLsb'_eq_extractLsb' (start₁ := 32) (len₁ := 32) rfl,
    BitVec.extractLsb'_append_extractLsb'_eq_extractLsb' (start₁ := 0) (len₁ := 32) rfl, BitVec.extractLsb'_eq_self]

/-- The mask of a read clears the data alone. -/
theorem busWord_clearData (x : BitVec 67) :
    BitVec.ofBool (x.getLsbD 66) ++ x.extractLsb' 64 2 ++ x.extractLsb' 32 32 ++ (0 : Word) =
      x &&& 0x7FFFFFFFF00000000 := by
  have hmask : (0x7FFFFFFFF00000000 : BitVec 67) =
      BitVec.allOnes 1 ++ BitVec.allOnes 2 ++ BitVec.allOnes 32 ++ (0 : Word) := by decide
  conv_rhs => rw [← busWord_eta x]
  rw [hmask, BitVec.and_append, BitVec.and_append, BitVec.and_append, BitVec.and_allOnes, BitVec.and_allOnes,
    BitVec.and_allOnes]
  exact congrArg _ BitVec.and_zero.symm

/-- What a word of format B decodes to has the word as its own, but for the data of a read. -/
theorem encode_of_decodeB {cfg : Config} {x : BitVec 67} {i : Instr} (h : decodeB cfg x = .ok i) :
    encode i = .b (if x.getLsbD 66 then x else x &&& 0x7FFFFFFFF00000000) := by
  rw [decodeB_eq, map_eq_ok_iff] at h
  obtain ⟨w, hw, rfl⟩ := h
  have hword : ∀ d, encodeB { wordAccess cfg x w with data := d } =
      .b (BitVec.ofBool (x.getLsbD 66) ++ x.extractLsb' 64 2 ++ x.extractLsb' 32 32 ++ d) := fun d => by
    rw [← code_of_decodeWidth hw]
    rfl
  cases hrw : x.getLsbD 66 with
  | true =>
    have hword := hword (x.extractLsb' 0 32)
    rw [busWord_eta] at hword
    exact (encode_of_busAccess (busAccess_accessInstr_write hrw)).trans hword
  | false =>
    have hword := hword 0
    rw [busWord_clearData] at hword
    exact (encode_of_busAccess (busAccess_accessInstr_read hrw)).trans hword

end Sys2Proof.Machine
end

section
/-! PROOFS of `DecodeEncodeRoundTrip` (O1), `EncodeDecodeCanonical` (O2), `DecodeRejectsReserved` (O3) and
`SampleWordsDecode` (O4): a word of format P by its row, a word of format B by its access. -/
namespace Sys2Proof.Machine
open Sys2Proof

/-- Settles O1: a bus operation by its access, a port operation by its row. -/
theorem decodeEncodeRoundTrip : Obligations.DecodeEncodeRoundTrip := by
  intro cfg i hwf
  cases hb : i.busAccess with
  | some b =>
    obtain ⟨-, -, hindex⟩ := (wellFormed_iff hb cfg).1 hwf
    rw [encode_of_busAccess hb, decode_encodeB hindex, accessInstr_of_busAccess hb]
  | none =>
    have hsource : i.sourceFits cfg = true := by
      rw [Instr.wellFormed, hb, Bool.and_eq_true] at hwf
      exact hwf.1
    exact decode_encode_port hb hsource

/-- Settles O2: the fields of the word, put together again. -/
theorem encodeDecodeCanonical : Obligations.EncodeDecodeCanonical := by
  refine ⟨fun cfg w i h => encode_of_decodeB h, fun cfg op arg i h => ?_⟩
  obtain ⟨r, hr⟩ := exists_portRow cfg op arg
  exact encode_of_portRow hr ((decodeP_of_portRow hr).symm.trans h)

/-- Settles O3: a word of format B by its width code, a word of format P by its row. -/
theorem decodeRejectsReserved : Obligations.DecodeRejectsReserved := by
  refine ⟨fun cfg w => ?_, fun cfg op arg => ?_⟩
  · rw [decode, decodeB_eq, map_eq_error_iff, decodeWidth_error_iff]
  · obtain ⟨r, hr⟩ := exists_portRow cfg op arg
    rw [decode, decodeP_of_portRow hr]
    cases hr with
    | request | unrequest | raise =>
      rw [decodeSource_error_iff]
      simp [portOps]
    | fire =>
      rw [map_eq_error_iff, decodeTimer_error_iff]
      simp [portOps]
    | unlisted h => simp [h]
    | _ => simp [portOps]

/-- Settles O4, by running the decoder. -/
theorem sampleWordsDecode : Obligations.SampleWordsDecode := by
  unfold Obligations.SampleWordsDecode
  decide

end Sys2Proof.Machine
end

section
/-! PROOFS of `TimeAdvancesToDeadlines` (O35) and `StepRunsDecoded` (O5). -/
namespace Sys2Proof.Machine
open Sys2Proof

/-! ## Time -/

/-- `ADVANCE` is enabled where time moves and no armed deadline is passed (30_encoding R119). -/
theorem advanceEnabled_iff {dt : Word} {s : State} :
    advanceEnabled dt s = true ↔ 1 ≤ dt.toNat ∧ ∀ t d, deadlineOf t s = some d → s.now + dt.toNat ≤ d := by
  rw [advanceEnabled, Bool.and_eq_true, decide_eq_true_eq, noDeadlineBefore_iff]

theorem exec_advance_of_enabled {dt : Word} {s : State} (h : advanceEnabled dt s = true) :
    exec (.advance dt) s = .next (s.setNow (s.now + dt.toNat)) :=
  if_pos h

theorem exec_advance_of_not_enabled {dt : Word} {s : State} (h : ¬advanceEnabled dt s = true) :
    exec (.advance dt) s = .refused .notEnabled :=
  if_neg h

theorem exec_fire_of_not_due {t : TimerId} {s : State} (h : ¬timerDue t s = true) :
    exec (.fire t) s = .refused .notEnabled :=
  if_neg h

/-- Settles O35: `ADVANCE` by its enabling, `FIRE` by the timer's being due. -/
theorem timeAdvancesToDeadlines : Obligations.TimeAdvancesToDeadlines := by
  refine ⟨fun dt s hdt hall => exec_advance_of_enabled (advanceEnabled_iff.2 ⟨hdt, hall⟩), fun dt s hlate => ?_,
    fun t s hall => ?_⟩
  · refine exec_advance_of_not_enabled fun hen => ?_
    obtain ⟨hdt, hall⟩ := advanceEnabled_iff.1 hen
    rcases hlate with hzero | ⟨t, d, hd, hlt⟩
    · omega
    · exact Nat.not_le.2 hlt (hall t d hd)
  · refine exec_fire_of_not_due fun hdue => ?_
    obtain ⟨d, hd, hle⟩ := timerDue_iff.1 hdue
    exact Nat.not_le.2 (hall d hd) hle

/-! ## Steps -/

/-- A step takes the first event (30_encoding R110). -/
theorem step_of_event {s : State} {e : Event} {es : List Event} (h : s.events = e :: es) :
    step s = happen e (s.withEvents es) := by
  unfold step
  rw [h]

theorem step_of_no_event {s : State} (h : s.events = []) : step s = .next s := by
  unfold step
  rw [h]

theorem happen_op_of_decodes {s : State} {w : RawOp} {i : Instr} (h : decode s.cfg w = .ok i) :
    happen (.op w) s = exec i s := by
  unfold happen
  simp only [h]

theorem happen_op_of_rejected {s : State} {w : RawOp} {e : DecodeError} (h : decode s.cfg w = .error e) :
    happen (.op w) s = .refused (.badEncoding e) := by
  unfold happen
  simp only [h]

/-- The step after a fetch is the fetched operation on the state before it. -/
theorem step_withFetchWord {s : State} {nbits w : Nat} {r : RawOp} {i : Instr} (hr : rawOfTable nbits w = some r)
    (hi : decode s.cfg r = .ok i) : step (s.withFetchWord nbits w) = exec i s := by
  have hfetch : s.withFetchWord nbits w = s.withEvents (.op r :: s.events) := by
    rw [State.withFetchWord, hr]
  rw [hfetch, step_of_event (e := .op r) (es := s.events) rfl]
  exact happen_op_of_decodes (s := s) hi

/-- A table word decodes where it is a word of its format that the decoder takes under the default parameters. -/
theorem decodeTableWord_eq_some {nbits w : Nat} {i : Instr} (h : decodeTableWord nbits w = some i) :
    ∃ r, rawOfTable nbits w = some r ∧ decode defaultConfig r = .ok i := by
  unfold decodeTableWord at h
  cases hr : rawOfTable nbits w with
  | none => simp [hr] at h
  | some r =>
    cases hi : decode defaultConfig r with
    | error e => simp [hr, hi, Except.toOption] at h
    | ok j => simpa [hr, hi, Except.toOption] using h

/-- Settles O5: the first event by its kind; a fetched word is the first event. -/
theorem stepRunsDecoded : Obligations.StepRunsDecoded := by
  refine ⟨?operation, ?rejected, ?fetched, ?tableWord, ?context, ?pins, ?operands, ?memory, ?nothing⟩
  case operation => exact fun s w es i hs hi => (step_of_event hs).trans (happen_op_of_decodes hi)
  case rejected => exact fun s w es e hs he => (step_of_event hs).trans (happen_op_of_rejected he)
  case fetched => exact fun s nbits w r i hr hi => step_withFetchWord hr hi
  case tableWord =>
    intro s nbits w i hcfg h
    obtain ⟨r, hr, hi⟩ := decodeTableWord_eq_some h
    exact step_withFetchWord hr (hcfg ▸ hi)
  case context => exact fun s es c hs => step_of_event hs
  case pins => exact fun s es p q hs => step_of_event hs
  case operands => exact fun s es p hs => step_of_event hs
  case memory =>
    intro s es a v hs
    exact ⟨_, step_of_event hs, rfl, byteAt_setByte s.mem a v⟩
  case nothing => exact fun s hs => step_of_no_event hs

end Sys2Proof.Machine
end

section
/-! SUPPORT. What keeps the test flag equal to `TestFn` (40_intc R146, R147): an update of none of the parts that
`TestFn` looks at, and each operation of the block that requests, withdraws or recomputes. -/
namespace Sys2Proof.Machine
open Sys2Proof

/-! ## Updates that `TestFn` does not see -/

/-- `TestFn` looks at the controller's flags and priorities, the status register and `ICR` alone. -/
theorem freshTest_of_within {e : Effect} {s t : State} (hw : Within e s t) (hrequests : e.requests = false)
    (hprio : e.prio = false) (hicr : s.cfg.index .icr ∉ e.cells) : FreshTest t ↔ FreshTest s := by
  obtain ⟨hrequesting, hpending, htest⟩ := hw.requests hrequests
  unfold FreshTest
  rw [htest, passing_congr hw.cfg (by rw [hw.cpu]) hrequesting hpending (hw.prio hprio) (within_reg hw hicr)]

theorem freshTest_setReg {s : State} (hs : s.cfg.separate = true) {r : Reg} (hr : r ≠ .icr) (v : Word)
    (h : FreshTest s) : FreshTest (s.setReg r v) := by
  refine (freshTest_congr (s := s) (t := s.setReg r v) rfl rfl rfl ?_).2 h
  rw [setReg_reg hs, if_neg hr.symm]

theorem freshTest_tmuArm {s : State} (n : TmuChan) (h : FreshTest s) : FreshTest (tmuArm n s) := by
  rw [tmuArm_eq]
  exact h

theorem freshTest_dmacNmi {s : State} (hs : s.cfg.separate = true) (h : FreshTest s) : FreshTest (dmacNmi s) := by
  have hw : Within { nmiEffect s.cfg with requests := false } s (dmacNmi s) := by
    refine within_dmacNmi (within_self _ s) (fun n => ?_) (List.mem_singleton_self _)
    fin_cases n <;> simp [nmiEffect]
  refine (freshTest_of_within hw rfl rfl ?_).2 h
  simp [nmiEffect, index_inj hs]

/-- `RECOMPUTE` changes nothing exactly where the test flag is fresh. -/
theorem recompute_eq_self_iff {s : State} : recompute s = s ↔ FreshTest s := by
  constructor
  · intro h
    rw [← h]
    exact recompute_fresh s
  · intro h
    have htest : testFn s = s.intc.test := Bool.eq_iff_iff.2 (testFn_iff.trans h.symm)
    rw [recompute_eq, htest]

/-! ## Dispatch, the lines and the timers -/

theorem freshTest_raiseSource {x : Source} {s : State} (h : FreshTest s ∨ Accepts s x) :
    FreshTest (raiseSource x s) := by
  by_cases hacc : Accepts s x
  · obtain ⟨i, -, hfresh, -⟩ := raiseSource_accepted hacc
    exact hfresh
  · rw [raiseSource_declined hacc]
    exact h.resolve_right hacc

theorem freshTest_boundary {d : Bool} {s : State} (h : FreshTest s) : FreshTest (boundary d s) := by
  rcases boundary_cases d s with he | ⟨x, he⟩ <;> rw [he]
  · exact h
  · exact freshTest_raiseSource (.inl h)

theorem freshTest_setIrl {k : Fin 4} {v : Bool} {s t : State} (h : FreshTest s)
    (hx : exec (.setIrl k v) s = .next t) : FreshTest t := by
  change execSetIrl k v s = _ at hx
  unfold execSetIrl at hx
  split at hx
  · cases hx
    exact h
  · split at hx
    · cases hx
      exact h
    · cases hx
      dsimp only
      split
      · exact requestSource_fresh (.inl h)
      · exact unrequestSource_fresh (.inl h)

theorem freshTest_unrequest_foldl (l : List (Fin 15)) {s : State} (h : FreshTest s) :
    FreshTest (l.foldl (fun s k => unrequestSource (srcIrll k) s) s) := by
  induction l generalizing s with
  | nil => exact h
  | cons k l ih => exact ih (unrequestSource_fresh (.inl h))

theorem freshTest_irlLevelShown {v : BitVec 4} {s : State} (h : FreshTest s) : FreshTest (irlLevelShown v s) := by
  have hall := freshTest_unrequest_foldl irllValues (s := s.setIntc { s.intc with irlLevel := v }) h
  unfold irlLevelShown
  split
  · exact requestSource_fresh (.inl hall)
  · exact hall

theorem freshTest_setIrln {v : Word} {s t : State} (h : FreshTest s) (hx : exec (.setIrln v) s = .next t) :
    FreshTest t := by
  change execSetIrln v s = _ at hx
  unfold execSetIrln at hx
  split at hx
  · cases hx
    exact h
  · split at hx
    · cases hx
      exact h
    · cases hx
      exact freshTest_irlLevelShown h

theorem freshTest_setNmi {v : Bool} {s t : State} (hs : s.cfg.separate = true) (h : FreshTest s)
    (hx : exec (.setNmi v) s = .next t) : FreshTest t := by
  rcases setNmi_next hx with (rfl | rfl) | ⟨-, rfl⟩
  · exact h
  · exact h
  · have hrequested : FreshTest (requestSource srcNmi (s.setIntc { s.intc with nmiLine := true })) :=
      requestSource_fresh (.inl h)
    refine freshTest_dmacNmi ?_ hrequested
    rw [requestSource_eq]
    exact hs

theorem freshTest_dmaComplete (n : Chan) {s : State} (hs : s.cfg.separate = true) (h : FreshTest s) :
    FreshTest (dmaComplete n s) := by
  have hended := freshTest_setReg (s := (s.setChan n (s.chan n).cancelled).setReg (.dmatcr n) 0) hs
    (r := .chcr n) nofun (putTe (((s.setChan n (s.chan n).cancelled).setReg (.dmatcr n) 0).reg (.chcr n)) true)
    (freshTest_setReg (s := s.setChan n (s.chan n).cancelled) hs (r := .dmatcr n) nofun 0 h)
  unfold dmaComplete
  dsimp only
  split
  · exact requestSource_fresh (.inl hended)
  · exact hended

theorem freshTest_tmuExpire (n : TmuChan) {s : State} (hs : s.cfg.separate = true) (h : FreshTest s) :
    FreshTest (tmuExpire n s) := by
  have harmed := freshTest_tmuArm n (freshTest_setReg hs (r := .tcnt n) nofun (s.reg (.tcor n)) h)
  have hsep : (tmuArm n (s.setReg (.tcnt n) (s.reg (.tcor n)))).cfg.separate = true := by
    rw [tmuArm_eq]
    exact hs
  unfold tmuExpire
  dsimp only
  generalize tmuArm n (s.setReg (.tcnt n) (s.reg (.tcor n))) = s1 at harmed hsep ⊢
  have hended := freshTest_setReg hsep (r := .tcr n) nofun (putUnf (s1.reg (.tcr n)) true) harmed
  split
  · exact requestSource_fresh (.inl hended)
  · exact hended

theorem freshTest_tcrWritten (n : TmuChan) (old : State) {new : State} (hs : new.cfg.separate = true)
    (h : FreshTest new) : FreshTest (tcrWritten n old new) := by
  have hcounted : FreshTest (if tstrStr (new.reg .tstr) n then
      tmuArm n (if (old.timer n).deadline.isSome then new.setReg (.tcnt n) (tmuLive n old) else new) else new) := by
    split
    · apply freshTest_tmuArm
      split
      · exact freshTest_setReg hs (r := .tcnt n) nofun _ h
      · exact h
    · exact h
  unfold tcrWritten
  dsimp only
  generalize (if tstrStr (new.reg .tstr) n then
      tmuArm n (if (old.timer n).deadline.isSome then new.setReg (.tcnt n) (tmuLive n old) else new)
    else new) = s1 at hcounted ⊢
  split
  · exact unrequestSource_fresh (.inl hcounted)
  · exact hcounted

/-- A write of a priority register or of `ICR` recomputes. -/
theorem freshTest_of_recomputingWrite {i : Instr} {s t : State} (hx : exec i s = .next t)
    (hi : (∃ k, i.writesReg = some (.ipr k)) ∨ i.writesReg = some .icr) : FreshTest t := by
  rcases hi with ⟨k, hk⟩ | hicr
  · obtain ⟨v, ht⟩ := writeHandler_of_writesReg hk hx (by simp [hardWired])
    cases ht
    exact recompute_fresh _
  · obtain ⟨v, ht⟩ := writeHandler_of_writesReg hicr hx (by simp [hardWired])
    cases ht
    exact recompute_fresh _

end Sys2Proof.Machine
end

section
/-! PROOF of `TestFlagStaysFresh` (O10). An operation that may write the controller's flags leaves the test flag fresh
by its own rule; any other, but `RESET`, leaves all that `TestFn` looks at, by its effect. -/
namespace Sys2Proof.Machine
open Sys2Proof

/-- The operations that may write the controller's flags keep the test flag fresh. -/
theorem freshTest_of_mayRequest {i : Instr} {s t : State} (hs : s.cfg.separate = true) (hx : exec i s = .next t)
    (hi : MayRequest i) (h : FreshTest s) : FreshTest t := by
  rcases hi with rfl | ⟨x, rfl⟩ | ⟨x, rfl⟩ | ⟨x, rfl⟩ | rfl | ⟨k, v, rfl⟩ | ⟨v, rfl⟩ | rfl | ⟨n, rfl⟩ | ⟨n, rfl⟩ |
    hipr | hicr | ⟨n, htcr⟩
  · cases hx
    exact recompute_fresh s
  · cases hx
    exact requestSource_fresh (.inl h)
  · cases hx
    exact unrequestSource_fresh (.inl h)
  · cases hx
    exact freshTest_raiseSource (.inl h)
  · cases hx
    exact freshTest_boundary h
  · exact freshTest_setIrl h hx
  · exact freshTest_setIrln h hx
  · exact freshTest_setNmi hs h hx
  · rw [(fire_next hx).2]
    exact freshTest_dmaComplete n hs h
  · rw [(fire_next hx).2]
    exact freshTest_tmuExpire n hs h
  · exact freshTest_of_recomputingWrite hx (.inl hipr)
  · exact freshTest_of_recomputingWrite hx (.inr hicr)
  · obtain ⟨v, ht⟩ := writeHandler_of_writesReg htcr hx (by simp [hardWired])
    cases ht
    exact freshTest_tcrWritten n s hs (freshTest_setReg hs (r := .tcr n) nofun v h)

/-- `ICR` is written by its own write alone. -/
theorem writesReg_of_icr_mem_cells {cfg : Config} (hs : cfg.separate = true) {i : Instr}
    (hwf : i.wellFormed cfg = true) (hmem : cfg.index .icr ∈ cellsWritten cfg i) : i.writesReg = some .icr := by
  unfold cellsWritten at hmem
  split at hmem
  case h_1 | h_2 | h_3 =>
    cases (index_inj hs).1 (List.mem_singleton.1 hmem)
  case h_4 n =>
    simp [index_inj hs] at hmem
  case h_5 x =>
    have hx : Reg.icr ∈ expiryRegs x := (mem_map_index hs).1 hmem
    cases x <;> simp [expiryRegs, calendarRegs] at hx
  case h_6 w a d =>
    obtain ⟨-, -, hfits⟩ := (wellFormed_iff (i := .wrDefault w a d) rfl cfg).1 hwf
    exact absurd (List.mem_singleton.1 hmem) (ofIndex_eq_none.1 hfits .icr)
  case h_7 | h_8 | h_9 => cases hmem
  case h_10 =>
    split at hmem
    · rename_i r hr
      rcases List.mem_cons.1 ((mem_map_index hs).1 hmem) with rfl | hother
      · exact hr
      · rcases mem_handlerRegs hother with ⟨n, h | h⟩ | ⟨h, -⟩ | ⟨h, -⟩ | ⟨n, h, -⟩
        · cases h
        · cases h
        · cases h
        · simp [calendarRegs] at h
        · cases h
    · cases hmem

theorem freshTest_besideUnits {i : Instr} (hraise : ∀ x, i ≠ .raise x) (hboundary : ∀ d, i ≠ .boundary d) {s : State}
    (t : State) (h : FreshTest s) : FreshTest (besideUnits i s t) := by
  unfold besideUnits
  split
  case h_1 x => exact absurd rfl (hraise x)
  case h_2 d => exact absurd rfl (hboundary d)
  all_goals exact h

/-- An operation but `RESET` that may not write the controller's flags leaves all that `TestFn` looks at. -/
theorem freshTest_of_not_mayRequest {i : Instr} {s t : State} (hwf : i.wellFormed s.cfg = true)
    (hs : s.cfg.separate = true) (hne : i ≠ .reset) (hx : exec i s = .next t) (hi : ¬MayRequest i)
    (h : FreshTest s) : FreshTest t := by
  by_cases hboundary : ∃ d, i = .boundary d
  · obtain ⟨d, rfl⟩ := hboundary
    cases hx
    exact freshTest_boundary h
  · have hraise : ∀ x, i ≠ .raise x := fun x hr => hi (by simp [MayRequest, hr])
    have hbase := freshTest_besideUnits hraise (not_exists.1 hboundary) t h
    refine (freshTest_of_within (within_exec hx hne) ?requests ?prio ?icr).2 hbase
    case requests => exact Bool.eq_false_iff.2 fun hnamed => hi (mayRequest_of_execEffect hnamed)
    case prio =>
      refine Bool.eq_false_iff.2 fun hnamed => hi ?_
      have hipr := writesReg_of_execEffect_prio hnamed
      simp [MayRequest, hipr]
    case icr =>
      rw [besideUnits_cfg]
      intro hmem
      have hicr := writesReg_of_icr_mem_cells hs hwf (execEffect_cells_subset s.cfg i hmem)
      exact hi (by simp [MayRequest, hicr])

/-- `RESET` with both flags clear leaves the test flag fresh. -/
theorem freshTest_resetBlock {s : State} (hpending : s.cfg.reset.pending = false) (htest : s.cfg.reset.test = false) :
    FreshTest (resetBlock s) := by
  constructor
  · intro hset
    cases htest.symm.trans hset
  · rintro ⟨hset, -⟩
    cases hpending.symm.trans hset

/-- Settles O10: `RESET` by its values, the operations that may write the controller's flags by their rules, every
other operation by its effect. -/
theorem testFlagStaysFresh : Obligations.TestFlagStaysFresh := by
  intro i s t hwf hs hreset hx
  refine ⟨fun h => ?kept, ?made⟩
  case kept =>
    by_cases hne : i = .reset
    · obtain ⟨hpending, htest⟩ := hreset hne
      subst hne
      cases hx
      exact freshTest_resetBlock hpending htest
    · by_cases hi : MayRequest i
      · exact freshTest_of_mayRequest hs hx hi h
      · exact freshTest_of_not_mayRequest hwf hs hne hx hi h
  case made =>
    rintro (rfl | ⟨x, rfl, hidle⟩ | ⟨x, rfl, hrequesting⟩ | ⟨x, rfl, hacc⟩ | ⟨p, hp, w, a, d, rfl⟩ | ⟨w, a, d, rfl⟩)
    · cases hx
      exact recompute_fresh s
    · cases hx
      exact requestSource_fresh (.inr hidle)
    · cases hx
      exact unrequestSource_fresh (.inr hrequesting)
    · cases hx
      exact freshTest_raiseSource (.inr hacc)
    · exact freshTest_of_recomputingWrite hx
        (.inl ⟨p.2, writesReg_of_busAccess (busAccess_priorityWrite hp w a d) rfl⟩)
    · exact freshTest_of_recomputingWrite hx (.inr rfl)

end Sys2Proof.Machine
end

section
/-! PROOFS of `RecomputeEvaluatesTestFn` (O13), `RequestMarksSource` (O11) and `UnrequestClearsSource` (O12). -/
namespace Sys2Proof.Machine
open Sys2Proof

/-- Settles O13: the computed `TestFn` is the proposition. -/
theorem recomputeEvaluatesTestFn : Obligations.RecomputeEvaluatesTestFn :=
  fun s => ⟨recompute s, rfl, rfl, testFn_iff⟩

theorem pendingFresh_iff {s : State} :
    PendingFresh s ↔ (s.intc.pending = true ↔ ∃ y : Source, s.intc.requesting[y] = true) := by
  rw [PendingFresh, Bool.eq_iff_iff, anyRequesting_iff]

/-! ## Request and unrequest -/

theorem exec_request (x : Source) (s : State) : exec (.request x) s = .next (requestSource x s) := rfl

theorem exec_unrequest (x : Source) (s : State) : exec (.unrequest x) s = .next (unrequestSource x s) := rfl

/-- `REQUEST` changes the requests and the flags alone, whatever it finds. -/
theorem requestSource_frame (x : Source) (s : State) :
    requestSource x s = { s with intc := { s.intc with
      requesting := (requestSource x s).intc.requesting
      pending := (requestSource x s).intc.pending
      test := (requestSource x s).intc.test } } :=
  (requestSource_eq x s).trans (congrArg s.setIntc (requestSource_intc x s))

theorem unrequestSource_frame (x : Source) (s : State) :
    unrequestSource x s = { s with intc := { s.intc with
      requesting := (unrequestSource x s).intc.requesting
      pending := (unrequestSource x s).intc.pending
      test := (unrequestSource x s).intc.test } } :=
  (unrequestSource_eq x s).trans (congrArg s.setIntc (unrequestSource_intc x s))

theorem requestSource_pending_of_idle {x : Source} {s : State} (h : s.intc.requesting[x] = false) :
    (requestSource x s).intc.pending = true := by
  rw [requestSource_of_idle h]
  rfl

/-- An `UNREQUEST` that clears leaves the pending flag fresh, whatever it was. -/
theorem pendingFresh_of_unrequest {x : Source} {s : State} (h : s.intc.requesting[x] = true) :
    PendingFresh (unrequestSource x s) := by
  rw [unrequestSource_of_requesting h]
  rfl

/-- `UNREQUEST` after the `REQUEST` of an idle source leaves the requests and recomputes both flags. -/
theorem unrequest_requestSource {x : Source} {s : State} (h : s.intc.requesting[x] = false) :
    unrequestSource x (requestSource x s) =
      recompute (s.setIntc { s.intc with pending := anyRequesting s.intc }) := by
  have hset : (s.intc.requesting.set x true).set x false = s.intc.requesting := by
    rw [Vector.set_set, ← h]
    exact Vector.set_getElem_self ..
  have hrequests : (requestSource x s).intc.requesting[x] = true := by
    rw [requestSource_requesting, decide_eq_true rfl, Bool.true_or]
  rw [unrequestSource_of_requesting hrequests, requestSource_of_idle h]
  change recompute (s.setIntc { s.intc with
    requesting := (s.intc.requesting.set x true).set x false
    pending := anyRequesting { s.intc with requesting := (s.intc.requesting.set x true).set x false }
    test := _ }) = _
  rw [hset]
  rfl

/-- `UNREQUEST` undoes a `REQUEST` exactly where the source was idle and both flags were fresh. -/
theorem unrequest_request_eq_self_iff {x : Source} {s : State} :
    unrequestSource x (requestSource x s) = s ↔
      s.intc.requesting[x] = false ∧ FreshTest s ∧ PendingFresh s := by
  constructor
  · intro h
    have hidle : s.intc.requesting[x] = false := by
      rw [← h, unrequestSource_requesting, decide_eq_true rfl, Bool.not_true, Bool.false_and]
    have hrecomputed := (unrequest_requestSource hidle).symm.trans h
    refine ⟨hidle, ?_, ?_⟩
    · rw [← hrecomputed]
      exact recompute_fresh _
    · exact (congrArg (fun u => u.intc.pending) hrecomputed).symm
  · rintro ⟨hidle, hfresh, hpending⟩
    rw [unrequest_requestSource hidle, ← hpending]
    exact recompute_eq_self_iff.2 hfresh

/-- Settles O11: an idle source by what a request writes, a word of no source by the decoder. -/
theorem requestMarksSource : Obligations.RequestMarksSource := by
  refine ⟨fun x s h => ?requesting, fun x s h => ?idle, fun cfg arg h => ?unlisted⟩
  case requesting => rw [exec_request, requestSource_of_requesting h]
  case idle =>
    refine ⟨_, exec_request x s, ?_, fun y => requestSource_requesting x y s, requestSource_fresh (.inr h)⟩
    rw [← requestSource_pending_of_idle h]
    exact requestSource_frame x s
  case unlisted =>
    exact (decodeP_of_portRow .request).trans (if_neg (Nat.not_lt.2 h))

/-- Settles O12: a requesting source by what a withdrawal recomputes, the pair of operations by its one equation. -/
theorem unrequestClearsSource : Obligations.UnrequestClearsSource := by
  refine ⟨fun x s h => ?idle, fun x s h => ?requesting, fun x s => ?undone⟩
  case idle => rw [exec_unrequest, unrequestSource_of_idle h]
  case requesting =>
    exact ⟨_, exec_unrequest x s, unrequestSource_frame x s, fun y => unrequestSource_requesting x y s,
      pendingFresh_iff.1 (pendingFresh_of_unrequest h), unrequestSource_fresh (.inr h)⟩
  case undone =>
    rw [exec_request, andThen_next, exec_unrequest, ← pendingFresh_iff, ← unrequest_request_eq_self_iff]
    exact ⟨Host.Outcome.next.inj, congrArg _⟩

end Sys2Proof.Machine
end

section
/-! PROOFS of `MaskComparesRank` (O14), `SelectFindsHighest` (O15) and `BoundaryDispatchesHighest` (O16). The order of
40_intc R142 is total, so the source that outranks every other requesting one is the only one that does. -/
namespace Sys2Proof.Machine
open Sys2Proof

theorem exceeds_iff {s : State} {x : Source} : exceeds s x = true ↔ srImask s * 16 < rank s x :=
  decide_eq_true_iff

theorem srImask_lt (s : State) : srImask s < 16 := (field s.cpu.sr s.cfg.srImask 4).isLt

theorem rank_eq (s : State) (x : Source) :
    rank s x = s.intc.prio[x].level * 256 + s.intc.prio[x].sub * 16 := rfl

/-- Settles O14: a level counts 256, more than any mask of 4 bits reaches. -/
theorem maskComparesRank : Obligations.MaskComparesRank := by
  intro s x
  have hmask := srImask_lt s
  have hrank := rank_eq s x
  refine ⟨hrank, exceeds_iff, fun hlevel => ?_, fun hlevel => ?_, fun hlevel hsub => ?_⟩
  · rw [exceeds_iff]
    omega
  · rw [exceeds_iff, ← srImask_eq]
    omega
  · rw [← Bool.not_eq_true, exceeds_iff]
    omega

/-! ## The selection -/

theorem select_eq_none_iff {s : State} : select s = none ↔ ∀ y : Source, s.intc.requesting[y] = false := by
  have hspec := select_spec s
  constructor
  · intro h
    rwa [h] at hspec
  · intro h
    cases hselect : select s with
    | none => rfl
    | some x =>
      rw [hselect] at hspec
      cases hspec.1.symm.trans (h x)

theorem select_eq_some_iff {s : State} {x : Source} :
    select s = some x ↔ s.intc.requesting[x] = true ∧
      ∀ y : Source, s.intc.requesting[y] = true → y ≠ x → Outranks s x y := by
  have hspec := select_spec s
  constructor
  · intro h
    rwa [h] at hspec
  · rintro ⟨hx, hhighest⟩
    cases hselect : select s with
    | none => cases hx.symm.trans (select_eq_none_iff.1 hselect x)
    | some z =>
      rw [hselect] at hspec
      obtain ⟨hz, hbest⟩ := hspec
      by_cases hne : z = x
      · rw [hne]
      · exact absurd (hhighest z hz hne) (outranks_asymm (hbest x hx (Ne.symm hne)))

theorem rank_le_of_outranks {s : State} {x y : Source} (h : Outranks s x y) : rank s y ≤ rank s x := by
  rcases h with h | ⟨h, -⟩ <;> omega

/-- Settles O15: by the walk's result, the order being total and following the rank. -/
theorem selectFindsHighest : Obligations.SelectFindsHighest := by
  intro s
  refine ⟨select_eq_none_iff, fun x => select_eq_some_iff, fun x hselect hmasked y hy => ?_⟩
  obtain ⟨-, hhighest⟩ := select_eq_some_iff.1 hselect
  by_cases hne : y = x
  · rwa [hne]
  · have hle := rank_le_of_outranks (hhighest y hy hne)
    rw [← Bool.not_eq_true, exceeds_iff] at hmasked ⊢
    omega

/-! ## The boundary -/

theorem exec_boundary (d : Bool) (s : State) : exec (.boundary d) s = .next (boundary d s) := rfl

theorem exec_raise (x : Source) (s : State) : exec (.raise x) s = .next (raiseSource x s) := rfl

theorem boundary_of_test_clear {s : State} (h : s.intc.test = false) (d : Bool) : boundary d s = s := by
  simp [boundary, h]

theorem boundary_of_select_none {s : State} (h : select s = none) (d : Bool) : boundary d s = s := by
  simp [boundary, h]

theorem boundary_of_select_some {s : State} {x : Source} (htest : s.intc.test = true) (h : select s = some x) :
    boundary false s = raiseSource x s := by
  simp [boundary, htest, h]

/-- Settles O16: the three cases in which nothing is raised, and the selection. -/
theorem boundaryDispatchesHighest : Obligations.BoundaryDispatchesHighest := by
  intro d s
  refine ⟨⟨_, exec_boundary d s⟩, ?_, ?_⟩
  · rintro (rfl | htest | hidle)
    · rw [exec_boundary, boundary_delayed]
    · rw [exec_boundary, boundary_of_test_clear htest]
    · rw [exec_boundary, boundary_of_select_none (select_eq_none_iff.2 hidle)]
  · rintro x rfl htest hx hhighest
    rw [exec_boundary, exec_raise, boundary_of_select_some htest (select_eq_some_iff.2 ⟨hx, hhighest⟩)]

end Sys2Proof.Machine
end

section
/-! PROOF of `RaiseEntersOrDeclines` (O17). An accepted dispatch writes of the controller what its auto-clear does: the
withdrawal of the source where it is one of the five, nothing where it is not. -/
namespace Sys2Proof.Machine
open Sys2Proof

/-- While `BL` = 1, nothing but NMI with `ICR.NMIB` = 1 is accepted. -/
theorem not_accepts_of_blocked {x : Source} {s : State} (hbl : bit s.cpu.sr s.cfg.srBl = true)
    (hnmi : ¬(x.val = 16 ∧ bit (s.reg .icr) 9 = true)) : ¬Accepts s x := by
  unfold Accepts
  split
  · rename_i hx
    have hnmib : bit (s.reg .icr) 9 = false := Bool.eq_false_iff.2 fun h => hnmi ⟨hx, h⟩
    exact not_not.2 ⟨hbl, hnmib⟩
  · rintro ⟨hfree, -⟩
    cases hbl.symm.trans hfree

/-- The controller after the auto-clear of a dispatch, before it recomputes (40_intc R160, part 3). -/
def autoClear (x : Source) (s : State) : Intc := if autoCleared x then (unrequestSource x s).intc else s.intc

theorem autoClear_frame (x : Source) (s : State) : autoClear x s = { s.intc with
    requesting := (autoClear x s).requesting
    pending := (autoClear x s).pending
    test := (autoClear x s).test } := by
  unfold autoClear
  split
  · exact unrequestSource_intc x s
  · rfl

theorem autoClear_requesting (x y : Source) (s : State) : (autoClear x s).requesting[y] =
    (s.intc.requesting[y] && !(decide (y = x) && decide (x.val ∈ [16, 44, 45, 46, 47]))) := by
  rw [← autoCleared_iff]
  unfold autoClear
  split
  · rename_i hclears
    rw [unrequestSource_requesting, hclears, Bool.and_true, Bool.and_comm]
  · rename_i hkeeps
    simp [hkeeps]

theorem autoClear_pending_of_cleared {x : Source} {s : State}
    (h : x.val ∈ [16, 44, 45, 46, 47] ∧ s.intc.requesting[x] = true) :
    (autoClear x s).pending = anyRequesting (autoClear x s) := by
  obtain ⟨hx, hrequests⟩ := h
  have hclears : autoCleared x = true := by rw [autoCleared_iff, decide_eq_true hx]
  rw [autoClear, if_pos hclears]
  exact pendingFresh_of_unrequest hrequests

theorem autoClear_of_kept {x : Source} {s : State}
    (h : ¬(x.val ∈ [16, 44, 45, 46, 47] ∧ s.intc.requesting[x] = true)) : autoClear x s = s.intc := by
  unfold autoClear
  split
  · rename_i hclears
    rw [autoCleared_iff, decide_eq_true_eq] at hclears
    have hidle : s.intc.requesting[x] = false := Bool.eq_false_iff.2 fun hrequests => h ⟨hclears, hrequests⟩
    rw [unrequestSource_of_idle hidle]
  · rfl

/-- Settles O17: what an accepted dispatch writes, of the controller by the auto-clear. -/
theorem raiseEntersOrDeclines : Obligations.RaiseEntersOrDeclines := by
  refine ⟨fun x s h => ?declined, fun x s hbl hnmi => ?blocked, fun x s h => ?accepted⟩
  case declined => rw [exec_raise, raiseSource_declined h]
  case blocked => rw [exec_raise, raiseSource_declined (not_accepts_of_blocked hbl hnmi)]
  case accepted =>
    obtain ⟨i, hraise, hfresh, hi⟩ := raiseSource_accepted h
    change i = { autoClear x s with test := i.test } at hi
    have hrequesting : i.requesting = (autoClear x s).requesting := by rw [hi]
    have hpending : i.pending = (autoClear x s).pending := by rw [hi]
    rw [hraise] at hfresh
    refine ⟨_, congrArg Host.Outcome.next hraise, rfl, rfl, fun j => bit_srEntered s.cfg s.cpu.sr j,
      fun c => setReg_cell s .intevt _ c, rfl, ?frame, fun y => ?requests, fun hclears => ?cleared,
      fun hkeeps => ?kept, hfresh⟩
    case frame =>
      rw [autoClear_frame, ← hrequesting, ← hpending] at hi
      exact hi
    case requests =>
      dsimp only
      rw [hrequesting]
      exact autoClear_requesting x y s
    case cleared =>
      dsimp only
      rw [hpending, autoClear_pending_of_cleared hclears, anyRequesting_iff, hrequesting]
    case kept => exact hpending.trans (congrArg Intc.pending (autoClear_of_kept hkeeps))

end Sys2Proof.Machine
end

section
/-! PROOFS of `SetIrlTracksEdges` (O18) and `SetIrlnShowsLevel` (O19). -/
namespace Sys2Proof.Machine
open Sys2Proof

/-! ## The discrete lines -/

theorem exec_setIrl_combined {k : Fin 4} {v : Bool} {s : State} (h : bit (s.reg .icr) 7 = false) :
    exec (.setIrl k v) s = .next s := if_pos h

theorem exec_setIrl_of_no_edge {k : Fin 4} {v : Bool} {s : State} (h : s.intc.irlLine[k] = v) :
    exec (.setIrl k v) s = .next s := by
  change execSetIrl k v s = _
  unfold execSetIrl
  rw [if_pos h, ite_self]

theorem exec_setIrl_of_edge {k : Fin 4} {v : Bool} {s : State} (h : bit (s.reg .icr) 7 = true)
    (hedge : s.intc.irlLine[k] ≠ v) :
    exec (.setIrl k v) s = exec (if v then .request (srcIrl k) else .unrequest (srcIrl k))
      (s.setIntc { s.intc with irlLine := s.intc.irlLine.set k v }) := by
  change execSetIrl k v s = _
  have hdiscrete : icrIrlm s ≠ false := ne_false_of_eq_true h
  rw [execSetIrl, if_neg hdiscrete, if_neg hedge]
  cases v <;> rfl

/-- Settles O18: no edge, or the edge's request on the recorded line. -/
theorem setIrlTracksEdges : Obligations.SetIrlTracksEdges := by
  refine fun k v s => ⟨rfl, ?_, fun h hedge => ?_⟩
  · rintro (h | h)
    · exact exec_setIrl_combined h
    · exact exec_setIrl_of_no_edge h
  · rw [exec_setIrl_of_edge h hedge]
    cases v <;> exact ⟨_, rfl, rfl⟩

/-! ## The combined line -/

theorem exec_setIrln_discrete {v : Word} {s : State} (h : bit (s.reg .icr) 7 = true) :
    exec (.setIrln v) s = .next s := if_pos h

theorem exec_setIrln_of_combined {v : Word} {s : State} (h : bit (s.reg .icr) 7 = false) :
    exec (.setIrln v) s = if v.toInt < 0 ∨ 15 < v.toInt then .next (s.emitDiag (.irlLevelOversize v.toInt))
      else .next (irlLevelShown (field v 0 4) s) := by
  change execSetIrln v s = _
  have hcombined : icrIrlm s ≠ true := ne_true_of_eq_false h
  rw [execSetIrln, if_neg hcombined]

/-- A level that the combined line can show is its own field of 4 bits. -/
theorem level_of_toInt {v : Word} (hnonneg : 0 ≤ v.toInt) (hle : v.toInt ≤ 15) :
    v.toNat ≤ 15 ∧ (field v 0 4).toNat = v.toNat := by
  have hlt := v.isLt
  have hsmall : v.toNat ≤ 15 := by
    rw [BitVec.toInt_eq_toNat_cond] at hnonneg hle
    split at hle <;> omega
  refine ⟨hsmall, ?_⟩
  simp only [field, BitVec.extractLsb'_toNat, Nat.shiftRight_zero]
  omega

/-- The controller with every source of the combined line withdrawn, the line showing `v` (40_intc R174). -/
def irllWithdrawn (v : BitVec 4) (s : State) : Intc :=
  (irllValues.foldl (fun s k => unrequestSource (srcIrll k) s) (s.setIntc { s.intc with irlLevel := v })).intc

section
variable (v : BitVec 4) (s : State)

theorem irllWithdrawn_fold :
    irllValues.foldl (fun s k => unrequestSource (srcIrll k) s) (s.setIntc { s.intc with irlLevel := v }) =
      s.setIntc (irllWithdrawn v s) := by
  obtain ⟨i, hfold, -⟩ := unrequestIrll_foldl irllValues (s.setIntc { s.intc with irlLevel := v })
  rw [irllWithdrawn, hfold]
  rfl

theorem irllWithdrawn_frame : irllWithdrawn v s = { s.intc with
    irlLevel := v
    requesting := (irllWithdrawn v s).requesting
    pending := (irllWithdrawn v s).pending
    test := (irllWithdrawn v s).test } := by
  obtain ⟨i, hfold, hframe, -⟩ := unrequestIrll_foldl irllValues (s.setIntc { s.intc with irlLevel := v })
  rw [irllWithdrawn, hfold]
  exact hframe

theorem irllWithdrawn_requesting (y : Source) : (irllWithdrawn v s).requesting[y] =
    (!decide (17 ≤ y.val ∧ y.val ≤ 31) && s.intc.requesting[y]) := by
  obtain ⟨i, hfold, -, hrequesting, -⟩ := unrequestIrll_foldl irllValues (s.setIntc { s.intc with irlLevel := v })
  rw [irllWithdrawn, hfold, ← irll_any]
  exact hrequesting y

variable {s}

theorem irllWithdrawn_of_idle (h : ∀ y : Source, 17 ≤ y.val → y.val ≤ 31 → s.intc.requesting[y] = false) :
    irllWithdrawn v s = { s.intc with irlLevel := v } := by
  obtain ⟨i, hfold, -, -, hidle, -⟩ := unrequestIrll_foldl irllValues (s.setIntc { s.intc with irlLevel := v })
  rw [irllWithdrawn, hfold]
  refine hidle fun k _ => h (srcIrll k) ?_ ?_ <;> simp only [srcIrll] <;> omega

theorem irllWithdrawn_fresh (h : ∃ y : Source, 17 ≤ y.val ∧ y.val ≤ 31 ∧ s.intc.requesting[y] = true) :
    PendingFresh (s.setIntc (irllWithdrawn v s)) ∧ FreshTest (s.setIntc (irllWithdrawn v s)) := by
  obtain ⟨i, hfold, -, -, -, hfresh⟩ := unrequestIrll_foldl irllValues (s.setIntc { s.intc with irlLevel := v })
  obtain ⟨y, hlow, hhigh, hy⟩ := h
  obtain ⟨k, hk, rfl⟩ := irll_mem y hlow hhigh
  rw [irllWithdrawn, hfold]
  exact hfresh ⟨k, hk, hy⟩

end

theorem irlLevelShown_of_lt {v : BitVec 4} (h : v.toNat < 15) (s : State) :
    irlLevelShown v s = requestSource (srcIrll ⟨v.toNat, h⟩) (s.setIntc (irllWithdrawn v s)) := by
  rw [irlLevelShown, irllWithdrawn_fold]
  exact dif_pos h

theorem irlLevelShown_of_eq {v : BitVec 4} (h : v.toNat = 15) (s : State) :
    irlLevelShown v s = s.setIntc (irllWithdrawn v s) := by
  rw [irlLevelShown, irllWithdrawn_fold]
  exact dif_neg (by omega)

/-- Showing a level writes the level, the requests and the flags. -/
theorem irlLevelShown_frame (v : BitVec 4) (s : State) : irlLevelShown v s = { s with intc := { s.intc with
    irlLevel := v
    requesting := (irlLevelShown v s).intc.requesting
    pending := (irlLevelShown v s).intc.pending
    test := (irlLevelShown v s).intc.test } } := by
  by_cases h : v.toNat < 15
  · have hwithdrawn := irllWithdrawn_frame v s
    generalize (irllWithdrawn v s).requesting = requesting, (irllWithdrawn v s).pending = pending,
      (irllWithdrawn v s).test = test at hwithdrawn
    rw [irlLevelShown_of_lt h, hwithdrawn]
    exact requestSource_frame _ _
  · rw [irlLevelShown_of_eq (by omega), setIntc_intc]
    exact congrArg s.setIntc (irllWithdrawn_frame v s)

/-- Of the combined line's sources, the one of the level shown requests. -/
theorem irlLevelShown_requesting (v : BitVec 4) (s : State) (y : Source) :
    (irlLevelShown v s).intc.requesting[y] =
      if 17 ≤ y.val ∧ y.val ≤ 31 then decide (y.val = 17 + v.toNat) else s.intc.requesting[y] := by
  have hy : ∀ h : v.toNat < 15, y = srcIrll ⟨v.toNat, h⟩ ↔ y.val = 17 + v.toNat := fun h => Fin.ext_iff
  by_cases h : v.toNat < 15
  · rw [irlLevelShown_of_lt h, requestSource_requesting, setIntc_intc, irllWithdrawn_requesting]
    simp only [hy h]
    split
    · rename_i hline
      simp [hline]
    · rename_i hother
      have hne : y.val ≠ 17 + v.toNat := by omega
      simp [hother, hne]
  · have hv := v.isLt
    rw [irlLevelShown_of_eq (by omega), setIntc_intc, irllWithdrawn_requesting]
    split
    · rename_i hline
      have hne : y.val ≠ 17 + v.toNat := by omega
      simp [hline, hne]
    · rename_i hother
      simp [hother]

/-- A level that asks for something requests a source that was just withdrawn. -/
theorem irlLevelShown_flags_of_lt {v : BitVec 4} (h : v.toNat < 15) (s : State) :
    (irlLevelShown v s).intc.pending = true ∧ FreshTest (irlLevelShown v s) := by
  have hidle : (s.setIntc (irllWithdrawn v s)).intc.requesting[srcIrll ⟨v.toNat, h⟩] = false := by
    rw [setIntc_intc, irllWithdrawn_requesting]
    have hline : 17 ≤ (srcIrll ⟨v.toNat, h⟩).val ∧ (srcIrll ⟨v.toNat, h⟩).val ≤ 31 := by
      simp only [srcIrll]
      omega
    rw [decide_eq_true hline, Bool.not_true, Bool.false_and]
  rw [irlLevelShown_of_lt h]
  exact ⟨requestSource_pending_of_idle hidle, requestSource_fresh (.inr hidle)⟩

/-- Settles O19: the level's field, then what showing it leaves of the requests and of the flags. -/
theorem setIrlnShowsLevel : Obligations.SetIrlnShowsLevel := by
  intro v s
  refine ⟨exec_setIrln_discrete, fun h hout => ?oversize, fun h hnonneg hle => ?shown⟩
  case oversize =>
    rw [exec_setIrln_of_combined h, if_pos hout]
    rfl
  case shown =>
    obtain ⟨-, hlevel⟩ := level_of_toInt hnonneg hle
    have hin : ¬(v.toInt < 0 ∨ 15 < v.toInt) := by omega
    rw [exec_setIrln_of_combined h, if_neg hin, ← hlevel]
    refine ⟨_, rfl, irlLevelShown_frame _ s, irlLevelShown_requesting _ s,
      fun hlt => irlLevelShown_flags_of_lt hlt s, fun heq hline => ?_, fun heq hidle => ?_⟩
    · rw [irlLevelShown_of_eq heq]
      exact (irllWithdrawn_fresh _ hline).imp_left pendingFresh_iff.1
    · rw [irlLevelShown_of_eq heq, setIntc_intc, irllWithdrawn_of_idle _ hidle]
      exact ⟨rfl, rfl⟩

end Sys2Proof.Machine
end

section
/-! PROOF of `SetNmiRequestsAndCancels` (O20). -/
namespace Sys2Proof.Machine
open Sys2Proof

theorem exec_setNmi_of_no_edge {v : Bool} {s : State} (h : s.intc.nmiLine = v) : exec (.setNmi v) s = .next s :=
  if_pos h

theorem exec_setNmi_of_edge {v : Bool} {s : State} (h : s.intc.nmiLine ≠ v) :
    exec (.setNmi v) s = .next (if v then dmacNmi (requestSource srcNmi (s.setIntc { s.intc with nmiLine := v }))
      else s.setIntc { s.intc with nmiLine := v }) := if_neg h

/-- `DMAC_NMI` latches `NMIF` and cancels every channel in flight, one diagnostic each (41_dmac R220). -/
theorem dmacNmi_spec (s : State) : ∃ d, dmacNmi s = { s.setReg .dmaor (s.reg .dmaor ||| 2) with
      dma := d
      outputs := s.outputs ++ ((([0, 1, 2, 3] : List Chan).filter fun n => (s.chan n).active).map
        fun n => .diag (.dmaCancelledByNmi n)) } ∧
    ∀ n : Chan, d[n] =
      if (s.chan n).active then { s.chan n with active := false, deadline := none } else s.chan n := by
  obtain ⟨d, hwalk, hchan⟩ := nmiCancel_foldl [0, 1, 2, 3] (by decide) (s.setReg .dmaor (s.reg .dmaor ||| 2))
  refine ⟨d, hwalk, fun n => ?_⟩
  have hall : n ∈ ([0, 1, 2, 3] : List Chan) := by
    revert n
    decide
  have hcancelled := hchan n
  rw [if_congr (and_iff_right hall) rfl rfl] at hcancelled
  exact hcancelled

/-- What the request of an asserted NMI leaves of the controller. -/
theorem nmiRequested_intc {s : State} {i : Intc}
    (h : requestSource srcNmi (s.setIntc { s.intc with nmiLine := true }) = s.setIntc i) :
    i = { s.intc with nmiLine := true, requesting := i.requesting, pending := i.pending, test := i.test } ∧
    (∀ y : Source, i.requesting[y] = (decide (y.val = 16) || s.intc.requesting[y])) ∧
    (s.intc.requesting[srcNmi] = true → i.pending = s.intc.pending ∧ i.test = s.intc.test) ∧
    (s.intc.requesting[srcNmi] = false → i.pending = true) ∧
    (s.intc.requesting[srcNmi] = false → FreshTest (s.setIntc i)) := by
  generalize hline : s.setIntc { s.intc with nmiLine := true } = u at h
  have hi : i = (requestSource srcNmi u).intc := by rw [h, setIntc_intc]
  have hu : u.intc = { s.intc with nmiLine := true } := by rw [← hline, setIntc_intc]
  refine ⟨?frame, fun y => ?requests, fun hheld => ?held, fun hidle => ?pending, fun hidle => ?fresh⟩
  case frame =>
    have hframe := requestSource_intc srcNmi u
    rw [← hi, hu] at hframe
    exact hframe
  case requests =>
    have hnmi : y = srcNmi ↔ y.val = 16 := Fin.ext_iff
    rw [hi, requestSource_requesting, hu, decide_eq_decide.2 hnmi]
  case held =>
    rw [hi, requestSource_of_requesting (by rw [hu]; exact hheld), hu]
    exact ⟨rfl, rfl⟩
  case pending => rw [hi, requestSource_pending_of_idle (by rw [hu]; exact hidle)]
  case fresh =>
    rw [← h]
    exact requestSource_fresh (.inr (by rw [hu]; exact hidle))

/-- Settles O20: the edge by its direction, an assertion as the request of NMI and then `DMAC_NMI`. -/
theorem setNmiRequestsAndCancels : Obligations.SetNmiRequestsAndCancels := by
  intro s
  refine ⟨fun v h => exec_setNmi_of_no_edge h, fun h => ?released, fun h hs => ?asserted⟩
  case released => exact exec_setNmi_of_edge (by rw [h]; decide)
  case asserted =>
    have hexec : exec (.setNmi true) s = .next _ := exec_setNmi_of_edge (by rw [h]; decide)
    obtain ⟨i, hi⟩ : ∃ i, requestSource srcNmi (s.setIntc { s.intc with nmiLine := true }) = s.setIntc i :=
      ⟨_, requestSource_eq _ _⟩
    obtain ⟨hframe, hrequesting, hheld, hpending, hfresh⟩ := nmiRequested_intc hi
    obtain ⟨d, hspec, hchan⟩ := dmacNmi_spec (s.setIntc i)
    rw [if_pos rfl, hi, hspec] at hexec
    refine ⟨_, hexec, ?frame, hrequesting, hheld, fun hidle => ⟨hpending hidle, ?fresh⟩,
      fun c => setReg_cell s .dmaor _ c, hchan, rfl⟩
    case frame =>
      conv_lhs => rw [hframe]
      rfl
    case fresh =>
      have hlatched := freshTest_dmacNmi (s := s.setIntc i) hs (hfresh hidle)
      rw [hspec] at hlatched
      exact hlatched

end Sys2Proof.Machine
end

section
/-! PROOFS of `PriorityWriteUpdatesFourSources` (O21) and `ControlWriteRecomputes` (O22). -/
namespace Sys2Proof.Machine
open Sys2Proof

/-- `SRC_TABLE` depends on its rows alone. -/
theorem srcEntry_congr {cfg cfg' : Config} (hlow : cfg.srcLow = cfg'.srcLow) (hhigh : cfg.srcHigh = cfg'.srcHigh)
    (x : Source) : cfg.srcEntry x = cfg'.srcEntry x := by
  unfold Config.srcEntry
  rw [hlow, hhigh]

/-- Under the spec's table the nibbles of the priority registers, the highest first, serve the sources from 36 on
(40_intc R152). -/
theorem srcEntry_default_iff (x : Source) (r k : Fin 4) :
    defaultConfig.srcEntry x = .nibble r k ↔ x.val = 36 + 4 * r.val + (3 - k.val) := by
  revert x r k
  decide

/-- NMI and the lines have fixed priorities under every table (00_scope R9). -/
theorem srcEntry_lines (cfg : Config) {x : Source} (hlow : 16 ≤ x.val) (hhigh : x.val ≤ 35) :
    ∃ level sub, cfg.srcEntry x = .fixed level sub := by
  have h16 : ¬x.val < 16 := by omega
  have h36 : x.val < 36 := by omega
  unfold Config.srcEntry
  rw [dif_neg h16, if_pos h36]
  split_ifs <;> exact ⟨_, _, rfl⟩

/-- The four sources of a priority register under the spec's table. -/
theorem prioWritten_default (r : Fin 4) (v : Word) (p : Vector Prio 64) (y : Source) :
    (prioWritten defaultConfig r v p)[y] =
      if 36 + 4 * r.val ≤ y.val ∧ y.val < 40 + 4 * r.val then ⟨0, iprNibble v (3 - (y.val - 36) % 4)⟩ else p[y] := by
  rw [prioWritten_get]
  cases hrow : defaultConfig.srcEntry y with
  | fixed level sub =>
    refine (if_neg fun hin => ?_).symm
    have hnibble := (srcEntry_default_iff y r ⟨3 - (y.val - 36) % 4, by omega⟩).2 (by simp only; omega)
    cases hrow.symm.trans hnibble
  | nibble q k =>
    have hy := (srcEntry_default_iff y q k).1 hrow
    have hr : q = r ↔ 36 + 4 * r.val ≤ y.val ∧ y.val < 40 + 4 * r.val := by
      rw [Fin.ext_iff]
      omega
    have hk : 3 - (y.val - 36) % 4 = k.val := by omega
    simp only [hr, hk]

/-- All that the handler of a priority register writes: the priorities and the test flag. -/
theorem priorityWritten_frame (k : Fin 4) (s : State) : priorityWritten k s = { s with intc := { s.intc with
    prio := (priorityWritten k s).intc.prio
    test := (priorityWritten k s).intc.test } } := by
  unfold priorityWritten
  generalize prioWritten s.cfg k (s.reg (.ipr k)) s.intc.prio = p
  rw [recompute_eq]
  rfl

/-- Settles O21: the stored register, then the row of each source in the table. -/
theorem priorityWriteUpdatesFourSources : Obligations.PriorityWriteUpdatesFourSources := by
  intro p hp w a d s hwf
  have hexec : exec (p.1 w a d) s = .next (priorityWritten p.2 (s.stored (.ipr p.2) w a d)) := by
    rw [exec_priorityWrite hp, busWritePure_of_none (priorityWrite_none hp hwf)]
    rfl
  have hintc : (s.stored (.ipr p.2) w a d).intc = s.intc := setReg_intc ..
  have hcfg : (s.stored (.ipr p.2) w a d).cfg = s.cfg := setReg_cfg ..
  generalize s.stored (.ipr p.2) w a d = u at hexec hintc hcfg ⊢
  have hprio : (priorityWritten p.2 u).intc.prio =
      prioWritten s.cfg p.2 (u.reg (.ipr p.2)) s.intc.prio := by
    rw [priorityWritten_prio, hcfg, hintc]
  refine ⟨_, hexec, ?frame, fun y => ?row, fun y hlow hhigh => ?line, fun hlow hhigh y => ?default,
    recompute_fresh _⟩
  case frame =>
    rw [← hintc]
    exact priorityWritten_frame p.2 u
  case row =>
    rw [hprio, prioWritten_get]
    rfl
  case line =>
    obtain ⟨level, sub, hrow⟩ := srcEntry_lines s.cfg hlow hhigh
    rw [hprio, prioWritten_get, hrow]
  case default =>
    have htable : prioWritten s.cfg = prioWritten defaultConfig := by
      unfold prioWritten
      simp only [srcEntry_congr (cfg' := defaultConfig) hlow hhigh]
    rw [hprio, htable, prioWritten_default]
    rfl

/-- Settles O22: the store, then `RECOMPUTE`. -/
theorem controlWriteRecomputes : Obligations.ControlWriteRecomputes := by
  intro w a d s hwf
  have hexec : exec (.wrIcr w a d) s = .next (recompute (s.stored .icr w a d)) :=
    busWritePure_of_none (w := w) (a := a) (busRefusal_of_wellFormed (i := .wrIcr w a d) rfl hwf)
      (s.cfg.index .icr) d fun _ new => recompute new
  exact ⟨_, hexec, rfl, recompute_fresh _⟩

end Sys2Proof.Machine
end

section
/-! PROOF of `CopyLoopHasClosedForm` (O27), and the bytes of a unit (20_memory R84, R91): which bytes a unit of
memory and a word of the host exchange, under both byte orders. A 32-byte unit is four pieces of 8 bytes. -/
namespace Sys2Proof.Machine
open Sys2Proof

/-! ## The places of a unit's bytes -/

/-- A unit of up to 8 bytes is one memory word. -/
theorem hostLane_of_word (e : Endian) {z i : Nat} (hz : z ≤ 8) (hi : i < z) : hostLane e z i = byteLane e z i := by
  cases e with
  | little => rfl
  | big =>
    simp only [hostLane, byteLane]
    omega

/-- A 32-byte unit is four memory words, the first lowest. -/
theorem hostLane_of_block (e : Endian) (i : Nat) : hostLane e 32 i = 8 * (i / 8) + byteLane e 8 (i % 8) := by
  cases e with
  | little => exact (Nat.div_add_mod i 8).symm
  | big => rfl

/-- Every unit but the 32-byte one is one access. -/
theorem unit_cases {z : Nat} (hz : z ∈ [1, 2, 4, 8, 32]) : (z ≠ 32 ∧ z ≤ 8) ∨ z = 32 := by
  simp only [List.mem_cons, List.not_mem_nil, or_false] at hz
  omega

/-- An address lies in the piece at offset `j` of a run of bytes where its own offset does. -/
theorem lt_eight_of_piece (x d : Word) {j : Nat} (hj : j ∈ [0, 8, 16, 24]) :
    (x - (d + BitVec.ofNat 32 j)).toNat < 8 ↔ 8 * ((x - d).toNat / 8) = j := by
  have hlt := (x - d).isLt
  rw [← BitVec.sub_sub, BitVec.toNat_sub, BitVec.toNat_ofNat]
  simp only [List.mem_cons, List.not_mem_nil, or_false] at hj
  omega

theorem toNat_of_piece (x d : Word) :
    (x - (d + BitVec.ofNat 32 (8 * ((x - d).toNat / 8)))).toNat = (x - d).toNat % 8 := by
  have hlt := (x - d).isLt
  rw [← BitVec.sub_sub, BitVec.toNat_sub, BitVec.toNat_ofNat]
  omega

/-- The pieces of a 32-byte unit are the offsets below 32, by eights. -/
theorem piece_mem_iff (o : Nat) : 8 * (o / 8) ∈ [0, 8, 16, 24] ↔ o < 32 := by
  simp only [List.mem_cons, List.not_mem_nil, or_false]
  omega

/-- A part of a part is a part of the whole. -/
theorem extractLsb'_of_part {w : Nat} (v : BitVec w) {start len first n : Nat} (h : first + n ≤ len) :
    (v.extractLsb' start len).extractLsb' first n = v.extractLsb' (start + first) n := by
  apply BitVec.eq_of_getLsbD_eq
  intro i hi
  have hlt : first + i < len := by omega
  simp only [BitVec.getLsbD_extractLsb', hi, hlt, decide_true, Bool.true_and, Nat.add_assoc]

/-! ## Writing a unit -/

/-- What a write of pieces stores, byte by byte. -/
theorem byteAt_writePieces (e : Endian) (d : Word) (f : Nat → BitVec 64) (x : Word) {l : List Nat}
    (hl : ∀ j ∈ l, j ∈ [0, 8, 16, 24]) (m : Memory) :
    byteAt (l.foldl (fun acc j => memWrite e acc (d + BitVec.ofNat 32 j) 8 (f j)) m) x =
      if 8 * ((x - d).toNat / 8) ∈ l then
        (f (8 * ((x - d).toNat / 8))).extractLsb' (8 * byteLane e 8 ((x - d).toNat % 8)) 8
      else byteAt m x := by
  induction l generalizing m with
  | nil => rfl
  | cons j l ih =>
    obtain ⟨hj, hl⟩ := List.forall_mem_cons.1 hl
    rw [List.foldl_cons, ih hl, byteAt_memWrite _ _ _ _ (by decide)]
    simp only [lt_eight_of_piece x d hj, List.mem_cons]
    by_cases hmem : 8 * ((x - d).toNat / 8) ∈ l
    · rw [if_pos hmem, if_pos (.inr hmem)]
    · rw [if_neg hmem]
      by_cases hpiece : 8 * ((x - d).toNat / 8) = j
      · rw [if_pos hpiece, if_pos (.inl hpiece), ← hpiece, toNat_of_piece]
      · rw [if_neg hpiece, if_neg (not_or_intro hpiece hmem)]

/-- What the write of a unit stores, byte by byte. -/
theorem byteAt_writeUnit_eq (e : Endian) (m : Memory) (a : Word) {z : Nat} (v : BitVec 256) (x : Word)
    (hz : z ∈ [1, 2, 4, 8, 32]) : byteAt (writeUnit e m a z v) x =
      if (x - a).toNat < z then v.extractLsb' (8 * hostLane e z (x - a).toNat) 8 else byteAt m x := by
  unfold writeUnit
  rcases unit_cases hz with ⟨hne, hle⟩ | rfl
  · rw [if_neg hne, byteAt_memWrite _ _ _ _ (by omega)]
    refine ite_congr rfl (fun hin => ?_) fun _ => rfl
    have hlane := byteLane_lt (e := e) hin
    rw [hostLane_of_word e hle hin, extractLsb'_of_part v (by omega), Nat.zero_add]
  · rw [if_pos rfl, byteAt_writePieces e a _ x fun _ => id]
    refine ite_congr (propext (piece_mem_iff _)) (fun hin => ?_) fun _ => rfl
    have hlane := byteLane_lt (e := e) (Nat.mod_lt (x - a).toNat (by decide : 0 < 8))
    rw [extractLsb'_of_part v (by omega), hostLane_of_block, Nat.mul_add]

/-! ## Reading a unit -/

/-- Above its bytes a memory word is 0. -/
theorem memRead_high (e : Endian) (m : Memory) (a : Word) (n : Nat) {j : Nat} (hj : 8 * n ≤ j) :
    (memRead e m a n).getLsbD j = false := by
  unfold memRead
  rw [getLsbD_foldl_or, show (0 : BitVec 64).getLsbD j = false from BitVec.getLsbD_zero, Bool.false_or,
    List.any_eq_false]
  intro i hi
  have hlane := byteLane_lt (e := e) (List.mem_range.1 hi)
  rw [BitVec.getLsbD_shiftLeft, BitVec.getLsbD_setWidth, BitVec.getLsbD_of_ge (byteAt _ _) _ (by omega)]
  simp

/-- Of four memory words side by side, each stands at its own place. -/
theorem extractLsb'_word (v : BitVec 64) {i j : Nat} (hi : i ∈ [0, 8, 16, 24]) (hj : j ∈ [0, 8, 16, 24]) :
    (v.setWidth 256 <<< (8 * j)).extractLsb' (8 * i) 64 = if i = j then v else 0#64 := by
  apply BitVec.eq_of_getLsbD_eq
  intro t ht
  simp only [List.mem_cons, List.not_mem_nil, or_false] at hi hj
  rw [BitVec.getLsbD_extractLsb', BitVec.getLsbD_shiftLeft, BitVec.getLsbD_setWidth]
  by_cases hij : i = j
  · have hin : 8 * j + t < 256 := by omega
    simp [hij, ht, hin]
    omega
  · rw [if_neg hij, BitVec.getLsbD_zero]
    by_cases hlow : 8 * i + t < 8 * j
    · simp [hlow]
    · rw [BitVec.getLsbD_of_ge v _ (by omega)]
      simp

/-- The four memory words of a 32-byte unit. -/
theorem readUnit_word (e : Endian) (m : Memory) (a : Word) {i : Nat} (hi : i ∈ [0, 8, 16, 24]) :
    (readUnit e m a 32).extractLsb' (8 * i) 64 = memRead e m (a + BitVec.ofNat 32 i) 8 := by
  simp only [readUnit, if_true, List.foldl_cons, List.foldl_nil, BitVec.extractLsb'_or,
    extractLsb'_word _ hi (List.mem_cons_self), extractLsb'_word _ hi (j := 8) (by decide),
    extractLsb'_word _ hi (j := 16) (by decide), extractLsb'_word _ hi (j := 24) (by decide)]
  simp only [List.mem_cons, List.not_mem_nil, or_false] at hi
  rcases hi with rfl | rfl | rfl | rfl <;> simp

/-- Each byte of a unit stands in its lane of the host's word. -/
theorem readUnit_lane (e : Endian) (m : Memory) (a : Word) {z i : Nat} (hz : z ∈ [1, 2, 4, 8, 32]) (hi : i < z) :
    (readUnit e m a z).extractLsb' (8 * hostLane e z i) 8 = byteAt m (a + BitVec.ofNat 32 i) := by
  rcases unit_cases hz with ⟨hne, hle⟩ | rfl
  · have hlane := byteLane_lt (e := e) hi
    rw [readUnit, if_neg hne, hostLane_of_word e hle hi, BitVec.extractLsb'_setWidth_of_le (by omega),
      memRead_lane e m a hle hi]
  · have hlane := byteLane_lt (e := e) (Nat.mod_lt i (by decide : 0 < 8))
    rw [hostLane_of_block, Nat.mul_add, ← extractLsb'_of_part _ (len := 64) (by omega),
      readUnit_word e m a ((piece_mem_iff i).2 hi), memRead_lane e m _ le_rfl (Nat.mod_lt i (by decide)),
      BitVec.add_assoc, ← BitVec.ofNat_add, Nat.div_add_mod]

/-- Above its bytes the host's word is 0. -/
theorem readUnit_high (e : Endian) (m : Memory) (a : Word) {z j : Nat} (hz : z ∈ [1, 2, 4, 8, 32])
    (hj : 8 * z ≤ j) : (readUnit e m a z).getLsbD j = false := by
  rcases unit_cases hz with ⟨hne, hle⟩ | rfl
  · rw [readUnit, if_neg hne, BitVec.getLsbD_setWidth, memRead_high e m a z hj, Bool.and_false]
  · exact BitVec.getLsbD_of_ge _ _ hj

/-! ## Moving a unit -/

/-- A piece moved, where both units are aligned: they are the same or share no byte. -/
theorem byteAt_movePiece (e : Endian) (m : Memory) (src dst : Word) {j : Nat} (hj : j ∈ [0, 8, 16, 24]) (x : Word) :
    byteAt (memWrite e m (dst + BitVec.ofNat 32 j) 8 (memRead e m (src + BitVec.ofNat 32 j) 8)) x =
      if 8 * ((x - dst).toNat / 8) = j then byteAt m (src + (x - dst)) else byteAt m x := by
  rw [byteAt_move e m _ _ le_rfl]
  refine ite_congr (propext (lt_eight_of_piece x dst hj)) (fun _ => ?_) fun _ => rfl
  congr 1
  abel

/-- The source of a move in pieces is, at each piece, as it was: the two aligned units are one, or share no byte. -/
theorem byteAt_movePiece_source (e : Endian) (m : Memory) {src dst : Word} (hs : src.toNat % 32 = 0)
    (hd : dst.toNat % 32 = 0) {j : Nat} (hj : j ∈ [0, 8, 16, 24]) {o : Word} (ho : o.toNat < 32) :
    byteAt (memWrite e m (dst + BitVec.ofNat 32 j) 8 (memRead e m (src + BitVec.ofNat 32 j) 8)) (src + o) =
      byteAt m (src + o) := by
  rw [byteAt_movePiece e m src dst hj]
  by_cases heq : src = dst
  · rw [heq, add_sub_cancel_left, ite_self]
  · have hfar : 32 ≤ (src + o - dst).toNat := by
      have hne : src.toNat ≠ dst.toNat := mt BitVec.eq_of_toNat_eq heq
      have hlt := src.isLt
      have hlt' := dst.isLt
      rw [BitVec.toNat_sub, BitVec.toNat_add]
      omega
    have hj' := (piece_mem_iff ((src + o - dst).toNat)).not.2 (by omega)
    rw [if_neg (ne_of_mem_of_not_mem hj hj').symm]

/-- What a move of pieces stores, byte by byte. -/
theorem byteAt_movePieces (e : Endian) {src dst : Word} (hs : src.toNat % 32 = 0) (hd : dst.toNat % 32 = 0)
    (x : Word) {l : List Nat} (hl : ∀ j ∈ l, j ∈ [0, 8, 16, 24]) (m : Memory) :
    byteAt (l.foldl (fun acc j =>
        memWrite e acc (dst + BitVec.ofNat 32 j) 8 (memRead e acc (src + BitVec.ofNat 32 j) 8)) m) x =
      if 8 * ((x - dst).toNat / 8) ∈ l then byteAt m (src + (x - dst)) else byteAt m x := by
  induction l generalizing m with
  | nil => rfl
  | cons j l ih =>
    obtain ⟨hj, hl⟩ := List.forall_mem_cons.1 hl
    rw [List.foldl_cons, ih hl]
    by_cases hmem : 8 * ((x - dst).toNat / 8) ∈ l
    · have hin := (piece_mem_iff _).1 (hl _ hmem)
      rw [if_pos hmem, if_pos (List.mem_cons_of_mem j hmem), byteAt_movePiece_source e m hs hd hj hin]
    · rw [if_neg hmem, byteAt_movePiece e m src dst hj]
      simp only [List.mem_cons, hmem, or_false]

/-- A move copies the bytes of its unit one to one. -/
theorem byteAt_moveUnit_eq (e : Endian) (m : Memory) {src dst : Word} {z : Nat} (x : Word)
    (hz : z ∈ [1, 2, 4, 8] ∨ z = 32 ∧ src.toNat % 32 = 0 ∧ dst.toNat % 32 = 0) :
    byteAt (moveUnit e m src dst z) x =
      if (x - dst).toNat < z then byteAt m (src + (x - dst)) else byteAt m x := by
  unfold moveUnit
  rcases hz with hz | ⟨rfl, hs, hd⟩
  · simp only [List.mem_cons, List.not_mem_nil, or_false] at hz
    rw [if_neg (by omega), byteAt_move e m src dst (by omega)]
  · rw [if_pos rfl, byteAt_movePieces e hs hd x fun _ => id]
    simp only [piece_mem_iff]

/-! ## The copy loop -/

/-- The first unit of a run, then the rest of it. -/
theorem copyUnits_cons (e : Endian) (src dst : Word) (z : Nat) (incs incd : Inc) (cnt : Nat) (m : Memory) :
    copyUnits e (stepAfter incs z (stepBefore incs z src)) (stepAfter incd z (stepBefore incd z dst)) z incs incd cnt
        (moveUnit e m (stepBefore incs z src) (stepBefore incd z dst) z) =
      copyUnits e src dst z incs incd (cnt + 1) m := by
  induction cnt with
  | zero => rw [copyUnits, copyUnits, copyUnits, unitAddr_zero, unitAddr_zero]
  | succ k ih => rw [copyUnits, ih, unitAddr_step, unitAddr_step, ← copyUnits]

theorem endAddr_zero (x : Word) (z : Nat) (inc : Inc) : endAddr x z inc 0 = x := by
  cases inc <;> simp [endAddr]

/-- The loop with running addresses is the run of the closed form. -/
theorem copyLoop_eq (e : Endian) (z : Nat) (incs incd : Inc) (cnt : Nat) (m : Memory) (src dst : Word) :
    copyLoop e z incs incd cnt m src dst =
      ⟨copyUnits e src dst z incs incd cnt m, endAddr src z incs cnt, endAddr dst z incd cnt⟩ := by
  induction cnt generalizing m src dst with
  | zero => rw [copyLoop, copyUnits, endAddr_zero, endAddr_zero]
  | succ k ih => rw [copyLoop, ih, copyUnits_cons, endAddr_step, endAddr_step]

/-- Settles O27: a move by its pieces, the loop by its turns. -/
theorem copyLoopHasClosedForm : Obligations.CopyLoopHasClosedForm :=
  ⟨fun e m _ _ _ x hz => byteAt_moveUnit_eq e m x hz, copyLoop_eq⟩

end Sys2Proof.Machine
end

section
/-! PROOFS of `ChannelWriteWithoutTransfer` (O23), `ChannelWriteStartsBurst` (O24) and `ChannelWriteStartsDevice`
(O25). A write of a channel register is the store and then the start check, whose five cases `check_cases` of
Laws/Dma.lean names; a block copy that keeps off the window is the copy loop. -/
namespace Sys2Proof.Machine
open Sys2Proof

/-! ## A block copy -/

/-- A block of legal parameters spans no more than the address space. -/
theorem span_of_unit {z cnt : Nat} (hz : z ∈ [1, 2, 4, 8, 32]) (hcnt : cnt ≤ 0x1000000) :
    1 ≤ z ∧ cnt * z ≤ 0x100000000 := by
  have hbounds : 1 ≤ z ∧ z ≤ 32 := by
    simp only [List.mem_cons, List.not_mem_nil, or_false] at hz
    omega
  exact ⟨hbounds.1, (Nat.mul_le_mul hcnt hbounds.2).trans (by decide)⟩

section
variable {cfg : Config} {m : Memory} {src dst : Word} {cnt z : Nat} {incs incd : Inc}

/-- A block that keeps off the window is copied by the copy loop. -/
theorem copyBlock_of_runFree (hz : z ∈ [1, 2, 4, 8, 32]) (hcnt : cnt ≤ 0x1000000)
    (hsrc : RunFree cfg (dmaAlign cfg.dmaAddrMask src z) z incs cnt)
    (hdst : RunFree cfg (dmaAlign cfg.dmaAddrMask dst z) z incd cnt) :
    copyBlock cfg m src dst cnt z incs incd = some (copyLoop cfg.endian z incs incd cnt m
      (dmaAlign cfg.dmaAddrMask src z) (dmaAlign cfg.dmaAddrMask dst z)) := by
  obtain ⟨hpos, hspan⟩ := span_of_unit hz hcnt
  simp only [copyBlock, runMeetsWindow_of_runFree hpos hspan hsrc, runMeetsWindow_of_runFree hpos hspan hdst,
    Bool.or_self, Bool.false_eq_true, if_false, copyLoop_eq]

/-- A block that meets the window is not copied. -/
theorem copyBlock_of_not_runFree (hz : z ∈ [1, 2, 4, 8, 32]) (hcnt : cnt ≤ 0x1000000)
    (h : ¬(RunFree cfg (dmaAlign cfg.dmaAddrMask src z) z incs cnt ∧
      RunFree cfg (dmaAlign cfg.dmaAddrMask dst z) z incd cnt)) :
    copyBlock cfg m src dst cnt z incs incd = none := by
  obtain ⟨hpos, hspan⟩ := span_of_unit hz hcnt
  have hexact := fun base inc => windowTestIsExact.2 cfg base z inc cnt hpos hspan
  rw [not_and_or, ← hexact, ← hexact] at h
  simp only [copyBlock, Bool.or_eq_true, h, if_true]

end

/-! ## A transfer -/

/-- Legal increments and a size that is not reserved are the parameters of a start. -/
theorem dmaSetup_of_legal {s : State} {n : Chan} {p : DmaSetup}
    (hincs : p.incs ≠ .illegal) (hsm : p.incs = Inc.ofCode (field (s.reg (.chcr n)) 12 2))
    (hincd : p.incd ≠ .illegal) (hdm : p.incd = Inc.ofCode (field (s.reg (.chcr n)) 14 2))
    (hsize : p.size ≠ 0) (hts : p.size = [8, 1, 2, 4, 32, 0, 0, 0].getD (field (s.reg (.chcr n)) 4 3).toNat 0)
    (hcount : p.count = (if (field (s.reg (.dmatcr n)) 0 24).toNat = 0 then 0x1000000
      else (field (s.reg (.dmatcr n)) 0 24).toNat)) : dmaSetup s n = .ok p := by
  obtain ⟨size, incs, incd, count⟩ := p
  dsimp only at hincs hsm hincd hdm hsize hts hcount
  subst hsm hdm hts hcount
  exact (if_neg (not_or_intro hincs hincd)).trans (if_neg hsize)

/-- Whether a burst keeps off the window, its parameters known. -/
theorem windowFree_iff {s : State} {n : Chan} {p : DmaSetup} (hp : dmaSetup s n = .ok p) :
    WindowFree s n ↔
      RunFree s.cfg (dmaAlign s.cfg.dmaAddrMask (s.reg (.sar n)) p.size) p.size p.incs p.count ∧
      RunFree s.cfg (dmaAlign s.cfg.dmaAddrMask (s.reg (.dar n)) p.size) p.size p.incd p.count := by
  unfold WindowFree
  rw [hp]
  exact ⟨fun h => h p rfl, fun h q hq => Except.ok.inj hq ▸ h⟩

/-- The copy that a burst of channel `n` makes (41_dmac R200). -/
def burstCopy (s : State) (n : Chan) (p : DmaSetup) : Copied :=
  copyLoop s.cfg.endian p.size p.incs p.incd p.count s.mem
    (dmaAlign s.cfg.dmaAddrMask (s.reg (.sar n)) p.size) (dmaAlign s.cfg.dmaAddrMask (s.reg (.dar n)) p.size)

/-- A burst that keeps off the window copies, arms its channel and writes its addresses back. -/
theorem transfer_of_windowFree {s : State} {n : Chan} {p : DmaSetup} (hp : dmaSetup s n = .ok p)
    (h : WindowFree s n) : transfer n .burst s =
      .next (writeBack n (burstCopy s n p).src (burstCopy s n p).dst
        ((s.setChan n { s.chan n with
          active := true, kind := .burst, deadline := some (s.now + burstDelay s.cfg p.count) }).setMem
            (burstCopy s n p).mem)) := by
  obtain ⟨-, -, -, hsize, -, hcount⟩ := dmaSetup_ok hp
  obtain ⟨hsrc, hdst⟩ := (windowFree_iff hp).1 h
  simp only [transfer, transferFrom, hp, copyBlock_of_runFree hsize hcount hsrc hdst]
  rfl

/-- A burst that meets the window is refused. -/
theorem transfer_of_not_windowFree {s : State} {n : Chan} {p : DmaSetup} (hp : dmaSetup s n = .ok p)
    (h : ¬WindowFree s n) (mode : TransferMode) : transfer n mode s = .refused .dmaIntoWindow := by
  obtain ⟨-, -, -, hsize, -, hcount⟩ := dmaSetup_ok hp
  rw [windowFree_iff hp] at h
  simp only [transfer, transferFrom, hp, copyBlock_of_not_runFree hsize hcount h]

/-- The destination is written back last. -/
theorem writeBack_cell (n : Chan) (a b : Word) (s : State) (i : Nat) :
    (writeBack n a b s).cell i =
      if s.cfg.writebackAddr = true ∧ i = s.cfg.index (.dar n) then b
      else if s.cfg.writebackAddr = true ∧ i = s.cfg.index (.sar n) then a
      else s.cell i := by
  unfold writeBack
  by_cases h : s.cfg.writebackAddr = true
  · simp only [h, if_true, true_and, setReg_cell, setReg_cfg]
  · simp [h]

/-- A device transfer of legal parameters latches them and signals the device. -/
theorem transferDevice_of_ok {s : State} {n : Chan} {p : DmaSetup} (hp : dmaSetup s n = .ok p) :
    transferDevice n s = (s.setChan n
      { active := true, kind := .device, deadline := none,
        devSrc := s.reg (.sar n), devDst := s.reg (.dar n), devCount := p.count, devSize := p.size,
        devIncs := p.incs, devIncd := p.incd, devMode := field (s.reg (.chcr n)) 8 4 }).emit
          (.dmaReady n (field (s.reg (.chcr n)) 8 4)) := by
  simp only [transferDevice, hp]
  rfl

/-! ## The writes -/

/-- A well-formed write of a channel register stores and runs the channel's start check. -/
theorem exec_channelWrite_of_wellFormed {p : WriteOp × Reg × Chan} (hp : p ∈ channelWrites) {w : Width} {a d : Word}
    {s : State} (wf : (p.1 w a d).wellFormed s.cfg = true) :
    exec (p.1 w a d) s = checkChannel p.2.2 (s.stored p.2.1 w a d) := by
  rw [exec_channelWrite hp, busWrite_of_none (channelWrite_none hp wf), storeMasked_index]
  rfl

/-- A start that fails leaves its diagnostic alone, whichever transfer it was to be. -/
theorem check_failed {s : State} {n : Chan} {d : Diag} (hready : Ready s n)
    (hsel : requestSelect s n ∈ [2, 3, 4, 5, 6]) (hp : dmaSetup s n = .error d) :
    checkChannel n s = .next (s.emitDiag d) := by
  by_cases hburst : requestSelect s n ∈ [4, 5, 6]
  · rw [check_burst hready hburst, transfer_of_error hp]
  · have hdevice : requestSelect s n ∈ [2, 3] := by
      simp only [List.mem_cons, List.not_mem_nil, or_false] at hsel hburst ⊢
      omega
    rw [check_device hready hdevice, transferDevice_of_error hp]

/-- Settles O23: the cases of the start check that start nothing. -/
theorem channelWriteWithoutTransfer : Obligations.ChannelWriteWithoutTransfer := by
  rintro q hq w a d s s1 n hwf rfl rfl
  rw [exec_channelWrite_of_wellFormed hq hwf]
  generalize s.stored q.2.1 w a d = s1
  refine ⟨rfl, fun he hheld => check_held he hheld, fun he ha => check_disabled_idle he ha,
    fun he ha => ⟨_, check_disabled_active he ha, rfl, fun m => setChan_chan ..⟩,
    fun hready hsel hinc => check_failed hready hsel (dmaSetup_error_inc hinc),
    fun hready hsel hsm hdm hts => check_failed hready hsel (dmaSetup_error_size hsm hdm hts)⟩

/-- Settles O24: the check starts a burst, which keeps off the window or does not. -/
theorem channelWriteStartsBurst : Obligations.ChannelWriteStartsBurst := by
  rintro q hq w a d s s1 n p hwf rfl hs1 hready hsel hincs hsm hincd hdm hsize hts hcount
  have hp := dmaSetup_of_legal hincs hsm hincd hdm hsize hts hcount
  have hcfg : s1.cfg = s.cfg := by rw [hs1]; rfl
  have hnow : s1.now = s.now := by rw [hs1]; rfl
  rw [exec_channelWrite_of_wellFormed hq hwf, ← hs1, check_burst hready hsel, ← hcfg, ← hnow]
  refine ⟨fun hfree => ⟨_, burstCopy s1 q.2.2 p, transfer_of_windowFree hp hfree, rfl, ?frame, fun m => ?chan,
    fun i => writeBack_cell ..⟩, fun hmet => transfer_of_not_windowFree hp hmet .burst⟩
  case frame =>
    rw [writeBack_frame]
    rfl
  case chan =>
    rw [writeBack_frame]
    exact setChan_chan ..

/-- Settles O25: the check starts a device transfer. -/
theorem channelWriteStartsDevice : Obligations.ChannelWriteStartsDevice := by
  rintro q hq w a d s s1 n p hwf rfl rfl hready hsel hincs hsm hincd hdm hsize hts hcount
  have hp := dmaSetup_of_legal hincs hsm hincd hdm hsize hts hcount
  rw [exec_channelWrite_of_wellFormed hq hwf, check_device hready hsel, transferDevice_of_ok hp]
  exact ⟨_, rfl, rfl, fun m => setChan_chan ..⟩

end Sys2Proof.Machine
end

section
/-! PROOFS of `DmaCompletionReports` (O34) and `BurstRoundTripCopies` (O29). The round trip is a channel write that
starts a burst (O24), the bytes of a copy onto memory apart from its source, and the completion. -/
namespace Sys2Proof.Machine
open Sys2Proof

/-! ## Completion (41_dmac R218) -/

/-- The completion of channel `n` but for its request: idle, the count zero, the transfer-end flag set. -/
def dmaEnded (n : Chan) (s : State) : State :=
  ((s.setChan n { s.chan n with active := false, deadline := none }).setReg (.dmatcr n) 0).setReg
    (.chcr n) (s.reg (.chcr n) ||| 2)

theorem putTe_true (v : Word) : putTe v true = v ||| 2 := rfl

theorem bit_or_two (v : Word) (j : Nat) : bit (v ||| 2) j = (decide (j = 1) || bit v j) :=
  bit_putBit_true v 1 j (by decide)

/-- The completion, the registers being apart: the interrupt enable decides on the request. -/
theorem dmaComplete_eq (n : Chan) {s : State} (hs : s.cfg.separate = true) :
    dmaComplete n s =
      if bit (s.reg (.chcr n)) 2 then requestSource (srcDmte n) (dmaEnded n s) else dmaEnded n s := by
  have hchcr : ((s.setChan n (s.chan n).cancelled).setReg (.dmatcr n) 0).reg (.chcr n) = s.reg (.chcr n) := by
    rw [setReg_reg (s := s.setChan n _) hs, if_neg nofun]
    rfl
  have hie : chcrIe (s.reg (.chcr n) ||| 2) = bit (s.reg (.chcr n)) 2 := by
    rw [chcrIe, bit_or_two]
    rfl
  simp only [dmaComplete, hchcr, putTe_true, setReg_reg_same, hie]
  rfl

/-- Settles O34: the timer is due, and its expiry is the completion. -/
theorem dmaCompletionReports : Obligations.DmaCompletionReports := by
  rintro n s u deadline hs hdeadline hdue rfl
  have hexec : exec (.fire (.dma n)) s = .next (dmaComplete n s) := fire_of_due (t := .dma n) hdeadline hdue
  rw [dmaComplete_eq n hs] at hexec
  refine ⟨rfl, _, hexec, fun hie => ?_, fun hie => ?_⟩
  · rw [if_pos hie]
    exact exec_request ..
  · rw [hie]
    rfl

/-- What the completion leaves of its registers and of memory. -/
theorem dmaComplete_leaves (n : Chan) {s : State} (hs : s.cfg.separate = true) :
    (dmaComplete n s).reg (.dmatcr n) = 0 ∧ bit ((dmaComplete n s).reg (.chcr n)) 1 = true ∧
    (dmaComplete n s).mem = s.mem := by
  have hended : (dmaEnded n s).reg (.dmatcr n) = 0 ∧ bit ((dmaEnded n s).reg (.chcr n)) 1 = true ∧
      (dmaEnded n s).mem = s.mem := by
    unfold dmaEnded
    refine ⟨?_, ?_, rfl⟩
    · rw [setReg_reg (s := (s.setChan n _).setReg _ _) hs, if_neg nofun, setReg_reg_same]
    · rw [setReg_reg_same, bit_or_two]
      rfl
  rw [dmaComplete_eq n hs, requestSource_eq]
  split
  · exact hended
  · exact hended

/-! ## A copy onto memory apart from its source -/

/-- The distance of two addresses below the end of the address space. -/
theorem toNat_ofNat_sub {x a : Nat} (hx : x < 2 ^ 32) (ha : a < 2 ^ 32) :
    (BitVec.ofNat 32 x - BitVec.ofNat 32 a).toNat = if a ≤ x then x - a else 2 ^ 32 + x - a := by
  rw [BitVec.toNat_sub, BitVec.toNat_ofNat, BitVec.toNat_ofNat]
  split <;> omega

/-- A rising copy between two ranges apart leaves the source's bytes at the destination. -/
theorem byteAt_copyUnits_rising (e : Endian) {z : Nat} (hz : z ∈ [1, 2, 4, 8]) {src dst : Nat} (m : Memory)
    {cnt : Nat} (hsrc : src + cnt * z ≤ 2 ^ 32) (hdst : dst + cnt * z ≤ 2 ^ 32)
    (hapart : src + cnt * z ≤ dst ∨ dst + cnt * z ≤ src) {j : Nat} (hj : j < cnt * z) :
    byteAt (copyUnits e (.ofNat 32 src) (.ofNat 32 dst) z .increment .increment cnt m) (.ofNat 32 (dst + j)) =
      byteAt m (.ofNat 32 (src + j)) := by
  induction cnt with
  | zero => omega
  | succ k ih =>
    have hmul : (k + 1) * z = k * z + z := Nat.succ_mul k z
    have hpos : 1 ≤ z := by
      simp only [List.mem_cons, List.not_mem_nil, or_false] at hz
      omega
    rw [copyUnits, byteAt_moveUnit_eq e _ _ (.inl hz), unitAddr, unitAddr, ← BitVec.ofNat_add, ← BitVec.ofNat_add,
      toNat_ofNat_sub (by omega) (by omega)]
    by_cases hlast : k * z ≤ j
    · have hoffset : BitVec.ofNat 32 (src + k * z) + (BitVec.ofNat 32 (dst + j) - BitVec.ofNat 32 (dst + k * z)) =
          BitVec.ofNat 32 (src + j) := by
        rw [show dst + j = dst + k * z + (j - k * z) by omega, BitVec.ofNat_add (dst + k * z), add_sub_cancel_left,
          ← BitVec.ofNat_add]
        congr 1
        omega
      rw [if_pos (show dst + k * z ≤ dst + j by omega), if_pos (by omega), hoffset]
      refine byteAt_copyUnits fun i hi hin => ?_
      have hunit : (i + 1) * z ≤ k * z := Nat.mul_le_mul_right z hi
      have hsucc : (i + 1) * z = i * z + z := Nat.succ_mul i z
      rw [inSpan, unitAddr, ← BitVec.ofNat_add, toNat_ofNat_sub (by omega) (by omega)] at hin
      split at hin <;> omega
    · rw [if_neg (show ¬dst + k * z ≤ dst + j by omega), if_neg (by omega)]
      exact ih (by omega) (by omega) (by omega) (by omega)

/-! ## The round trip (41_dmac R201) -/

/-- An aligned address below the bits that the default mask clears is its own DMA address. -/
theorem dmaAlign_of_low {a : Word} {z : Nat} (hz : z ∈ [1, 2, 4, 8, 32]) (hlow : a.toNat < 0x20000000)
    (haligned : a.toNat % z = 0) : dmaAlign 0x1FFFFFFF a z = a := by
  have hmask : (a &&& 0x1FFFFFFF).toNat = a.toNat := by
    rw [BitVec.toNat_and]
    exact (Nat.and_two_pow_sub_one_eq_mod a.toNat 29).trans (Nat.mod_eq_of_lt hlow)
  apply BitVec.eq_of_toNat_eq
  rw [dmaAlign_toNat _ _ hz, hmask, haligned, Nat.sub_zero]

/-- A write of a longword replaces the cell. -/
theorem laneMerge_long {e : Endian} {a : Word} (h : laneOk .long a = true) (old data : Word) :
    laneMerge e .long a old data = data := by
  have hlane : a.toNat % 4 = 0 := (laneOk_iff .long a).1 h
  have hshift : laneShift e .long a = 0 := by
    cases e <;> simp [laneShift, laneOf_eq, hlane, Width.bytes]
  apply BitVec.eq_of_getLsbD_eq
  intro j hj
  have hbit := bit_laneMerge e .long a old data hj
  rwa [hshift, if_pos ⟨Nat.zero_le j, by simpa [Width.bytes] using hj⟩] at hbit

/-- A rising run of longwords whose addresses keep off the window. -/
theorem runFree_of_longwords {cfg : Config} {start len : Nat}
    (h : ∀ j < len, inWindow cfg (BitVec.ofNat 32 (start + 4 * j)) = false) :
    RunFree cfg (BitVec.ofNat 32 start) 4 .increment len := by
  intro k hk
  refine ⟨?_, nofun⟩
  rw [unitAddr, ← BitVec.ofNat_add, Nat.mul_comm]
  exact h k hk

/-- A burst that keeps off the window leaves its copy in memory and its channel due after the delay. -/
theorem transfer_leaves {s : State} {n : Chan} {p : DmaSetup} (hp : dmaSetup s n = .ok p) (h : WindowFree s n) :
    ∃ t, transfer n .burst s = .next t ∧ t.cfg = s.cfg ∧ t.mem = (burstCopy s n p).mem ∧
      deadlineOf (.dma n) t = some (s.now + burstDelay s.cfg p.count) := by
  refine ⟨_, transfer_of_windowFree hp h, ?_⟩
  rw [writeBack_frame]
  exact ⟨rfl, rfl, congrArg DmaChannel.deadline (setChan_chan_same s n _)⟩

/-- What a long write of a channel's control word leaves in the registers. -/
theorem stored_chcr_long {s : State} (hs : s.cfg.separate = true) {a : Word} (hlane : laneOk .long a = true)
    (n : Chan) (d : Word) (r : Reg) :
    (s.stored (.chcr n) .long a d).reg r = if r = .chcr n then d else s.reg r := by
  rw [State.stored, setReg_reg hs, laneMerge_long hlane]

/-- A ready channel set up for a burst of longwords, rising on both sides between ranges apart, copies them at once
and is due after the delay. -/
theorem check_longwords {s : State} {n : Chan} {src dst len : Nat} (hready : Ready s n)
    (hsel : requestSelect s n ∈ [4, 5, 6]) (hsetup : dmaSetup s n = .ok ⟨4, .increment, .increment, len⟩)
    (hmask : s.cfg.dmaAddrMask = 0x1FFFFFFF) (hsrc : src = (s.reg (.sar n)).toNat) (hdst : dst = (s.reg (.dar n)).toNat)
    (hsrc4 : src % 4 = 0) (hdst4 : dst % 4 = 0) (hpos : 1 ≤ len) (hsrcEnd : src + 4 * len ≤ 0x20000000)
    (hdstEnd : dst + 4 * len ≤ 0x20000000)
    (hfree : ∀ j < len, inWindow s.cfg (BitVec.ofNat 32 (src + 4 * j)) = false ∧
      inWindow s.cfg (BitVec.ofNat 32 (dst + 4 * j)) = false)
    (hapart : src + 4 * len ≤ dst ∨ dst + 4 * len ≤ src) :
    ∃ t, checkChannel n s = .next t ∧ t.cfg = s.cfg ∧
      deadlineOf (.dma n) t = some (s.now + burstDelay s.cfg len) ∧
      ∀ j < 4 * len, byteAt t.mem (BitVec.ofNat 32 (dst + j)) = byteAt s.mem (BitVec.ofNat 32 (src + j)) := by
  have halign : ∀ {v : Word} {a : Nat}, a = v.toNat → a < 0x20000000 → a % 4 = 0 →
      dmaAlign s.cfg.dmaAddrMask v 4 = BitVec.ofNat 32 a := by
    rintro v a rfl hlow haligned
    rw [hmask, dmaAlign_of_low (by decide) hlow haligned, BitVec.ofNat_toNat, BitVec.setWidth_eq]
  have hsrcRun := halign hsrc (by omega) hsrc4
  have hdstRun := halign hdst (by omega) hdst4
  have hwindow : WindowFree s n := by
    rw [windowFree_iff hsetup, hsrcRun, hdstRun]
    exact ⟨runFree_of_longwords fun j hj => (hfree j hj).1, runFree_of_longwords fun j hj => (hfree j hj).2⟩
  obtain ⟨t, htransfer, hcfg, hmem, hdeadline⟩ := transfer_leaves hsetup hwindow
  rw [burstCopy, copyLoop_eq, hsrcRun, hdstRun] at hmem
  refine ⟨t, (check_burst hready hsel).trans htransfer, hcfg, hdeadline, fun j hj => ?_⟩
  rw [hmem]
  exact byteAt_copyUnits_rising s.cfg.endian (z := 4) (cnt := len) (by decide) s.mem (by omega) (by omega) (by omega)
    (by omega)

/-- Settles O29: the write leaves the channel ready; the check copies; the completion comes at the deadline. -/
theorem burstRoundTripCopies : Obligations.BurstRoundTripCopies := by
  rintro ⟨wr, m⟩ hq a d s n src dst len delay hwf hs rfl hsm hdm hts hrs hde hte hdme hnmif hae hidle hmask hsrc hdst
    hlen hpos hsrc4 hdst4 hsrcEnd hdstEnd hfree rfl hapart
  dsimp only at hwf ⊢
  have hrow : (wr, Reg.chcr n, n) ∈ channelWrites := by
    simp only [List.mem_cons, List.not_mem_nil, or_false, Prod.mk.injEq] at hq
    rcases hq with ⟨rfl, rfl⟩ | ⟨rfl, rfl⟩ | ⟨rfl, rfl⟩ | ⟨rfl, rfl⟩ <;> simp [channelWrites]
  obtain ⟨-, hlane, -⟩ := (wellFormed_iff (busAccess_channelWrite hrow .long a d) s.cfg).1 hwf
  have hexec : exec (wr .long a d) s = checkChannel n (s.stored (.chcr n) .long a d) :=
    exec_channelWrite_of_wellFormed hrow hwf
  obtain ⟨hchcr, hsar, hdar, hcount, hdmaor⟩ : (s.stored (.chcr n) .long a d).reg (.chcr n) = d ∧
      (s.stored (.chcr n) .long a d).reg (.sar n) = s.reg (.sar n) ∧
      (s.stored (.chcr n) .long a d).reg (.dar n) = s.reg (.dar n) ∧
      (s.stored (.chcr n) .long a d).reg (.dmatcr n) = s.reg (.dmatcr n) ∧
      (s.stored (.chcr n) .long a d).reg .dmaor = s.reg .dmaor := by
    simp [stored_chcr_long hs hlane]
  have hready : Ready (s.stored (.chcr n) .long a d) n := by
    unfold Ready Enabled
    rw [hchcr, hdmaor]
    exact ⟨⟨hde, hdme⟩, hidle, hae, hnmif, fun h => nomatch hte.symm.trans h.2⟩
  have hsel : requestSelect (s.stored (.chcr n) .long a d) n ∈ [4, 5, 6] := by
    rw [requestSelect, hchcr, hrs]
    decide
  have hsetup : dmaSetup (s.stored (.chcr n) .long a d) n = .ok ⟨4, .increment, .increment, len⟩ := by
    refine dmaSetup_of_legal nofun ?_ nofun ?_ nofun ?_ ?_
    · rw [hchcr, hsm]; rfl
    · rw [hchcr, hdm]; rfl
    · rw [hchcr, hts]; rfl
    · rw [hcount, ← hlen, if_neg (by omega)]
  obtain ⟨t, hcheck, hcfg, hdeadline, hbytes⟩ := check_longwords hready hsel hsetup hmask (by rw [hsar, hsrc])
    (by rw [hdar, hdst]) hsrc4 hdst4 hpos hsrcEnd hdstEnd hfree hapart
  have hsep : t.cfg.separate = true := by
    rw [hcfg]
    exact hs
  exact ⟨t, _, hexec.trans hcheck, hbytes, fire_of_due (t := .dma n) hdeadline le_rfl,
    dmaComplete_leaves n (s := { t with now := _ }) hsep⟩

end Sys2Proof.Machine
end

section
/-! PROOF of `OperationWriteChecksAll` (O26). The store, the two flags kept, and the four checks: together they
complete, cancel every channel in flight, or do nothing. -/
namespace Sys2Proof.Machine
open Sys2Proof

/-- A well-formed write of `DMAOR` stores what software may set, then runs the four checks. -/
theorem exec_wrDmaor {w : Width} {a d : Word} {s : State} (wf : (Instr.wrDmaor w a d).wellFormed s.cfg = true) :
    exec (.wrDmaor w a d) s =
      checkAll (s.setReg .dmaor (dmaorKept (s.reg .dmaor) ((s.stored .dmaor w a d).reg .dmaor))) := by
  have hexec := busWrite_of_none (w := w) (a := a) (busRefusal_of_wellFormed (i := .wrDmaor w a d) rfl wf)
    (s.cfg.index .dmaor) d
    fun old new => checkAll (new.setReg .dmaor (dmaorKept (old.reg .dmaor) (new.reg .dmaor)))
  rw [storeMasked_index, setReg_setReg] at hexec
  exact hexec

/-- The walk of the checks over channels that are not enabled cancels those in flight, one diagnostic each, in
order. -/
theorem checkEach_disabled {l : List Chan} (hl : l.Nodup) {s : State} (h : ∀ n, ¬Enabled s n) :
    ∃ d, checkEach l s = .next { s with
      dma := d
      outputs := s.outputs ++
        (l.filter fun n => (s.chan n).active).map fun n => Output.diag (.dmaCancelledByDisable n) } ∧
    ∀ n : Chan, d[n] = if n ∈ l ∧ (s.chan n).active = true then (s.chan n).cancelled else s.chan n := by
  induction l generalizing s with
  | nil => exact ⟨s.dma, by simp [checkEach], fun n => by simp; rfl⟩
  | cons k l ih =>
    obtain ⟨hk, hl⟩ := List.nodup_cons.1 hl
    cases hactive : (s.chan k).active with
    | false =>
      obtain ⟨d, hwalk, hchan⟩ := ih hl h
      refine ⟨d, ?_, fun n => ?_⟩
      · rw [checkEach, check_disabled_idle (h k) hactive, andThen_next, hwalk,
          List.filter_cons_of_neg (by simp [hactive])]
      · rw [hchan]
        refine ite_congr (propext ⟨fun ⟨hn, ha⟩ => ⟨List.mem_cons_of_mem k hn, ha⟩, fun ⟨hn, ha⟩ => ⟨?_, ha⟩⟩)
          (fun _ => rfl) fun _ => rfl
        exact List.mem_of_ne_of_mem (by rintro rfl; cases hactive.symm.trans ha) hn
    | true =>
      obtain ⟨s1, hs1⟩ : ∃ s1, s1 = (s.setChan k (s.chan k).cancelled).emitDiag (.dmaCancelledByDisable k) :=
        ⟨_, rfl⟩
      have hchan1 : ∀ n, s1.chan n = if n = k then (s.chan k).cancelled else s.chan n := fun n => by
        rw [hs1, emitDiag_chan, setChan_chan]
      obtain ⟨d, hwalk, hchan⟩ := ih hl (s := s1) (by rw [hs1]; exact h)
      have hfilter : (l.filter fun n => (s1.chan n).active) = l.filter fun n => (s.chan n).active :=
        List.filter_congr fun n hn => by rw [hchan1, if_neg (ne_of_mem_of_not_mem hn hk)]
      refine ⟨d, ?_, fun n => ?_⟩
      · rw [checkEach, check_disabled_active (h k) hactive, andThen_next, ← hs1, hwalk, hfilter,
          List.filter_cons_of_pos (p := fun n => (s.chan n).active) hactive, hs1]
        simp [State.emitDiag, State.emit, State.setChan]
      · rw [hchan, hchan1]
        by_cases hn : n = k
        · subst hn
          simp [hk, hactive]
        · simp [hn]

/-- The walk of the checks over channels that neither start nor stop leaves the state. -/
theorem checkEach_still {s : State}
    (h : ∀ n : Chan, (Enabled s n ∧ (¬Ready s n ∨ requestSelect s n ∉ [2, 3, 4, 5, 6])) ∨
      (¬Enabled s n ∧ (s.chan n).active = false)) (l : List Chan) : checkEach l s = .next s := by
  induction l with
  | nil => rfl
  | cons k l ih =>
    have hcheck : checkChannel k s = .next s := by
      rcases h k with ⟨he, hheld⟩ | ⟨he, hidle⟩
      · exact check_held he hheld
      · exact check_disabled_idle he hidle
    rw [checkEach, hcheck, andThen_next, ih]

/-- Settles O26: the four checks as one walk. -/
theorem operationWriteChecksAll : Obligations.OperationWriteChecksAll := by
  intro w a d s hwf
  have hexec := exec_wrDmaor hwf
  have hbits := bit_dmaorKept (s.reg .dmaor) ((s.stored .dmaor w a d).reg .dmaor)
  generalize dmaorKept (s.reg .dmaor) ((s.stored .dmaor w a d).reg .dmaor) = k at hexec hbits
  refine ⟨k, _, rfl, hbits, ?inOrder, fun hs hfree => ?completes, fun hoff => ?cancels, fun hstill => ?still⟩
  case inOrder => rw [hexec, checkAll, andThen_assoc, andThen_assoc]
  case completes =>
    rw [hexec, checkAll_eq_checkEach]
    exact checkEach_completes (by decide) hs fun n _ => hfree n
  case cancels =>
    have hdisabled : ∀ n, ¬Enabled (s.setReg .dmaor k) n := fun n he => by
      have hdme := he.2
      rw [setReg_reg_same] at hdme
      cases hoff.symm.trans hdme
    obtain ⟨c, hwalk, hchan⟩ := checkEach_disabled (l := [0, 1, 2, 3]) (by decide) hdisabled
    rw [hexec, checkAll_eq_checkEach]
    refine ⟨_, hwalk, rfl, fun n => (hchan n).trans ?_⟩
    have hall : n ∈ ([0, 1, 2, 3] : List Chan) := by
      revert n
      decide
    exact if_congr (and_iff_right hall) rfl rfl
  case still => rw [hexec, checkAll_eq_checkEach, checkEach_still hstill]

end Sys2Proof.Machine
end

section
/-! PROOFS of `PumpFillsBuffer` (O30) and `PumpDrainsBuffer` (O31). `DMA_DATA` by the channel it finds: none of its own
in flight, memory to device, device to memory; a run of units with an access in the register window is refused. -/
namespace Sys2Proof.Machine
open Sys2Proof

/-! ## Runs of units, and what fills a buffer -/

/-- The walk of a run of units finds no access in the window where there is none. -/
theorem anyMeetsWindow_eq_false {cfg : Config} {addr : Nat → Word} {z len : Nat} :
    ((List.range len).any fun k => unitMeetsWindow cfg (addr k) z) = false ↔
      ∀ k < len, UnitFree cfg (addr k) z := by
  simp only [List.any_eq_false, List.mem_range, Bool.not_eq_true, unitMeetsWindow_eq_false]

theorem anyMeetsWindow_eq_true {cfg : Config} {addr : Nat → Word} {z len : Nat} :
    ((List.range len).any fun k => unitMeetsWindow cfg (addr k) z) = true ↔
      ∃ k < len, ¬UnitFree cfg (addr k) z := by
  simp only [List.any_eq_true, List.mem_range, unitMeetsWindow_eq_true]

section
variable {α : Type} (f : Nat → α) (l : List α) {len k : Nat}

/-- A buffer filled from its start holds the new words first. -/
theorem getElem?_filled_of_lt (h : k < len) : ((List.range len).map f ++ l.drop len)[k]? = some (f k) := by
  rw [List.getElem?_append_left (by simpa using h), List.getElem?_map, List.getElem?_range h]
  rfl

/-- Behind them stand the old words. -/
theorem getElem?_filled_of_le (h : len ≤ k) : ((List.range len).map f ++ l.drop len)[k]? = l[k]? := by
  rw [List.getElem?_append_right (by simpa using h), List.getElem?_drop]
  congr 1
  simp
  omega

end

/-! ## The cases of the pump -/

section
variable {n : Chan} {s : State}

theorem pump_not_device (h : (s.chan n).active = false ∨ (s.chan n).kind ≠ .device) :
    exec (.dmaData n) s = .next (s.emit (.pumpResult n .notActive)) := if_pos h

theorem pump_memory_to_device (ha : (s.chan n).active = true) (hk : (s.chan n).kind = .device)
    (hm : (s.chan n).devMode = 2) :
    exec (.dmaData n) s = pumpToDevice n (min (s.chan n).devCount s.port.buffer.length) s :=
  (if_neg (by simp [ha, hk])).trans (if_pos hm)

theorem pump_device_to_memory (ha : (s.chan n).active = true) (hk : (s.chan n).kind = .device)
    (hm : (s.chan n).devMode ≠ 2) :
    exec (.dmaData n) s = pumpToMemory n (min (s.chan n).devCount s.port.buffer.length) s :=
  (if_neg (by simp [ha, hk])).trans (if_neg hm)

end

/-- Settles O30: the case of the channel, the test of the run, the words of the buffer by their places. -/
theorem pumpFillsBuffer : Obligations.PumpFillsBuffer := by
  rintro n s c len rfl hlen
  refine ⟨fun h => pump_not_device h, fun ha hk hm hfree => ?filled, fun ha hk hm hmet => ?refused⟩
  case refused =>
    rw [pump_memory_to_device ha hk hm, ← hlen]
    exact if_pos (anyMeetsWindow_eq_true.2 hmet)
  case filled =>
    have hexec := pump_memory_to_device ha hk hm
    rw [← hlen] at hexec
    refine ⟨_, hexec.trans (if_neg (Bool.eq_false_iff.1 (anyMeetsWindow_eq_false.2 hfree))), rfl,
      fun k hk => getElem?_filled_of_lt _ _ hk, fun hz k hk => ?lanes, fun k hk => getElem?_filled_of_le _ _ hk,
      fun m => setChan_chan ..⟩
    exact ⟨_, getElem?_filled_of_lt _ _ hk, fun i hi => readUnit_lane _ _ _ hz hi,
      fun j hj => readUnit_high _ _ _ hz hj⟩

/-- Settles O31: the case of the channel and the test of the run. -/
theorem pumpDrainsBuffer : Obligations.PumpDrainsBuffer := by
  refine ⟨fun e m a z v x hz => byteAt_writeUnit_eq e m a v x hz, ?_⟩
  rintro n s c len rfl hlen ha hk hm
  have hexec := pump_device_to_memory ha hk hm
  rw [← hlen] at hexec
  exact ⟨fun hfree => ⟨_, hexec.trans (if_neg (Bool.eq_false_iff.1 (anyMeetsWindow_eq_false.2 hfree))), rfl, rfl,
    fun m => setChan_chan ..⟩, fun hmet => hexec.trans (if_pos (anyMeetsWindow_eq_true.2 hmet))⟩

end Sys2Proof.Machine
end

section
/-! PROOF of `DirectTransferCopies` (O32). The addresses first, which leave the channel's parameters; then the length;
then a transfer without a timer, which fails, copies or meets the window. -/
namespace Sys2Proof.Machine
open Sys2Proof

/-! ## The cases of `DMA_DDT` -/

theorem ddt_of_active {n : Chan} {s : State} (h : (s.chan n).active = true) : exec (.dmaDdt n) s = .next s := if_pos h

theorem ddt_not_raw {n : Chan} {s : State} (h : (s.chan n).active = false) (hraw : s.port.record.raw = false) :
    exec (.dmaDdt n) s = ddtTransfer n s :=
  (if_neg (Bool.eq_false_iff.1 h)).trans (if_neg (Bool.eq_false_iff.1 hraw))

theorem ddt_of_raw {n : Chan} {s : State} (h : (s.chan n).active = false) (hraw : s.port.record.raw = true) :
    exec (.dmaDdt n) s = ddtRaw s :=
  (if_neg (Bool.eq_false_iff.1 h)).trans (if_pos hraw)

/-! ## The addresses -/

section
variable {n : Chan} {s : State} {src dst : Word}

/-- The addresses as the statement gives them: the read-back of the destination does not see the write-through of the
source, the registers being apart. -/
theorem ddtAddresses_eq (hs : s.cfg.separate = true)
    (hsrc : src = (if s.port.record.rdSrc then s.reg (.sar n) else s.port.record.source))
    (hdst : dst = (if s.port.record.rdDst then s.reg (.dar n) else s.port.record.destination)) :
    ddtAddresses n s =
      { (if s.port.record.wrDst then (if s.port.record.wrSrc then s.setReg (.sar n) src else s).setReg (.dar n) dst
          else if s.port.record.wrSrc then s.setReg (.sar n) src else s) with
        port := { s.port with record := { s.port.record with source := src, destination := dst } } } := by
  have hdar : (if s.port.record.wrSrc then s.setReg (.sar n) src else s).reg (.dar n) = s.reg (.dar n) := by
    split
    · rw [setReg_reg hs, if_neg nofun]
    · rfl
  unfold ddtAddresses
  simp only [← hsrc, hdar, ← hdst]
  cases s.port.record.wrSrc <;> cases s.port.record.wrDst <;> rfl

/-- What the read-back and write-through leave, the channel's parameters and the record's length among it. -/
theorem ddtAddresses_leaves (hs : s.cfg.separate = true)
    (hsrc : src = (if s.port.record.rdSrc then s.reg (.sar n) else s.port.record.source))
    (hdst : dst = (if s.port.record.rdDst then s.reg (.dar n) else s.port.record.destination)) :
    (ddtAddresses n s).cfg = s.cfg ∧ (ddtAddresses n s).mem = s.mem ∧ (ddtAddresses n s).outputs = s.outputs ∧
    (ddtAddresses n s).port = { s.port with record := { s.port.record with source := src, destination := dst } } ∧
    dmaSetup (ddtAddresses n s) n = dmaSetup s n ∧ ddtLengthOk n (ddtAddresses n s) = ddtLengthOk n s := by
  have hw := within_ddtAddresses n s
  obtain ⟨hframe, -⟩ := ddtAddresses_frame n s
  have hreg : ∀ r : Reg, r ≠ .sar n → r ≠ .dar n → (ddtAddresses n s).reg r = s.reg r := fun r h1 h2 =>
    within_reg hw (by simp [ddtEffect, index_inj hs, h1, h2])
  have hchcr := hreg (.chcr n) nofun nofun
  have hdmatcr := hreg (.dmatcr n) nofun nofun
  have hport : (ddtAddresses n s).port =
      { s.port with record := { s.port.record with source := src, destination := dst } } := by
    rw [ddtAddresses_eq hs hsrc hdst]
  refine ⟨hw.cfg, ?_, ?_, hport, dmaSetup_congr hchcr hdmatcr, ?_⟩
  · rw [hframe]
  · rw [hframe]
  · rw [ddtLengthOk, hchcr, hdmatcr, hport]
    rfl

end

/-! ## The transfer -/

theorem ddtLengthOk_eq_true {n : Chan} {s : State} : ddtLengthOk n s = true ↔
    unitSize (chcrTs (s.reg (.chcr n))) = 0 ∨ s.port.record.size = 0 ∨
      (s.reg (.dmatcr n)).toNat * unitSize (chcrTs (s.reg (.chcr n))) =
        s.port.record.length * s.port.record.size := by
  simp [ddtLengthOk, or_assoc]

section
variable {n : Chan} {s s1 : State} (haddr : ddtAddresses n s = s1)
include haddr

/-- A length that does not match ends the transfer at its addresses. -/
theorem ddtTransfer_of_mismatch (hlen : ddtLengthOk n s1 = false) : ddtTransfer n s = .next s1 := by
  simp [ddtTransfer, haddr, hlen]

theorem ddtTransfer_of_error (hlen : ddtLengthOk n s1 = true) {d : Diag} (h : dmaSetup s1 n = .error d) :
    ddtTransfer n s = .next (s1.emitDiag d) := by
  simp [ddtTransfer, haddr, hlen, transferFrom, h]

theorem ddtTransfer_of_copy (hlen : ddtLengthOk n s1 = true) {q : DmaSetup} (h : dmaSetup s1 n = .ok q) {r : Copied}
    (hcopy : copyBlock s1.cfg s1.mem s1.port.record.source s1.port.record.destination q.count q.size q.incs q.incd =
      some r) :
    ddtTransfer n s =
      .next ((s1.setMem r.mem).setRecord { s1.port.record with source := r.src, destination := r.dst }) := by
  simp [ddtTransfer, haddr, hlen, transferFrom, h, hcopy, armChannel]

theorem ddtTransfer_of_window (hlen : ddtLengthOk n s1 = true) {q : DmaSetup} (h : dmaSetup s1 n = .ok q)
    (hcopy : copyBlock s1.cfg s1.mem s1.port.record.source s1.port.record.destination q.count q.size q.incs q.incd =
      none) : ddtTransfer n s = .refused .dmaIntoWindow := by
  simp [ddtTransfer, haddr, hlen, transferFrom, h, hcopy]

end

/-- Settles O32: the addresses, the length, the parameters, the window. -/
theorem directTransferCopies : Obligations.DirectTransferCopies := by
  rintro n s s1 p src dst z rfl hs
  refine ⟨fun ha => ddt_of_active ha, fun ha hraw hsrc hdst hs1 hz => ?_⟩
  rw [ddt_not_raw ha hraw]
  have haddr := (ddtAddresses_eq hs hsrc hdst).trans hs1.symm
  obtain ⟨hcfg, hmem, houtputs, hport, hsetup, hlength⟩ := ddtAddresses_leaves hs hsrc hdst
  rw [haddr] at hcfg hmem houtputs hport hsetup hlength
  have hunit : z = unitSize (chcrTs (s.reg (.chcr n))) := hz
  rw [← houtputs]
  refine ⟨fun h0 hsize hne => ?mismatch, fun hlen => ⟨fun hinc => ?increment, fun hsm hdm h0 => ?size,
    fun incs incd cnt a b hincs hincs' hincd hincd' h0 hcnt ha hb => ⟨fun hfree => ?copied, fun hmet => ?refused⟩⟩⟩
  case mismatch =>
    refine ddtTransfer_of_mismatch haddr (hlength.trans (Bool.eq_false_iff.2 fun hok => ?_))
    rw [ddtLengthOk_eq_true, ← hunit] at hok
    exact hok.elim h0 fun h => h.elim hsize hne
  all_goals
    rw [hunit] at hlen
    replace hlen := hlength.trans (ddtLengthOk_eq_true.2 hlen)
  case increment => exact ddtTransfer_of_error haddr hlen (hsetup.trans (dmaSetup_error_inc hinc))
  case size =>
    exact ddtTransfer_of_error haddr hlen
      (hsetup.trans (dmaSetup_error_size hsm hdm (unitSize_eq_zero.1 (hunit.symm.trans h0))))
  all_goals
    have hlegal : dmaSetup s n = .ok ⟨z, incs, incd, cnt⟩ := dmaSetup_of_legal hincs' hincs hincd' hincd h0 hz hcnt
    obtain ⟨-, -, -, hmember, -, hcount⟩ := dmaSetup_ok hlegal
    subst ha hb
  case copied =>
    have hcopy := ddtTransfer_of_copy haddr hlen (hsetup.trans hlegal)
      (copyBlock_of_runFree (src := s1.port.record.source) (dst := s1.port.record.destination) hmember hcount
        (by rw [hcfg, hport]; exact hfree.1) (by rw [hcfg, hport]; exact hfree.2))
    rw [State.setRecord, setMem_port, hcfg, hport, hmem] at hcopy
    exact ⟨_, rfl, hcopy⟩
  case refused =>
    exact ddtTransfer_of_window haddr hlen (hsetup.trans hlegal)
      (copyBlock_of_not_runFree hmember hcount (by rw [hcfg, hport]; exact hmet))

end Sys2Proof.Machine
end

section
/-! PROOF of `RawTransferMoves` (O33). The size gives the pieces and their number, the direction the transfer; a run of
pieces is refused where it is misaligned or meets the register window. -/
namespace Sys2Proof.Machine
open Sys2Proof

/-! ## Which runs are refused -/

section
variable {cfg : Config} {base : Word} {z cnt : Nat}

/-- Pieces of up to 8 bytes are one access each. -/
theorem runFree_iff_inWindow (hz : z ∈ [4, 8]) :
    RunFree cfg base z .increment cnt ↔ ∀ k < cnt, inWindow cfg (unitAddr base z .increment k) = false := by
  have hne : z ≠ 32 := by
    rintro rfl
    simp at hz
  simp [RunFree, UnitFree, hne]

theorem rawRefusal_of_free (hz : z ∈ [4, 8]) (haligned : cnt = 0 ∨ base.toNat % z = 0)
    (h : RunFree cfg base z .increment cnt) : rawRefusal cfg base z cnt = none := by
  unfold rawRefusal
  by_cases hcnt : cnt = 0
  · rw [if_pos hcnt]
  · have hwindow : ¬(List.range cnt).any (fun k => inWindow cfg (unitAddr base z .increment k)) = true := by
      simpa using (runFree_iff_inWindow hz).1 h
    rw [if_neg hcnt, if_neg (not_not.2 (haligned.resolve_left hcnt)), if_neg hwindow]

theorem rawRefusal_of_misaligned (hcnt : cnt ≠ 0) (h : base.toNat % z ≠ 0) :
    rawRefusal cfg base z cnt = some .rawMisaligned := by
  rw [rawRefusal, if_neg hcnt, if_pos h]

theorem rawRefusal_of_window (hz : z ∈ [4, 8]) (hcnt : cnt ≠ 0) (haligned : base.toNat % z = 0)
    (h : ¬RunFree cfg base z .increment cnt) : rawRefusal cfg base z cnt = some .dmaIntoWindow := by
  have hwindow : (List.range cnt).any (fun k => inWindow cfg (unitAddr base z .increment k)) = true := by
    rw [runFree_iff_inWindow hz] at h
    simpa using h
  rw [rawRefusal, if_neg hcnt, if_neg (not_not.2 haligned), if_pos hwindow]

end

/-! ## The transfers -/

section
variable {s : State} {z cnt : Nat}

/-- A raw transfer is one of pieces, by its direction. -/
theorem ddtRaw_of_pieces (h : (s.port.record.size = 4 ∧ z = 4 ∧ cnt = s.port.record.length) ∨
      (s.port.record.size = 32 ∧ z = 8 ∧ cnt = 4 * s.port.record.length)) :
    (s.port.record.direction = .toHost → ddtRaw s = rawToHost z cnt s) ∧
    (s.port.record.direction = .toMemory → ddtRaw s = rawToMemory z cnt s) := by
  rcases h with ⟨hsize, rfl, rfl⟩ | ⟨hsize, rfl, rfl⟩
  · constructor <;> intro hdirection <;> simp [ddtRaw, hsize, hdirection]
  · constructor <;> intro hdirection <;> simp [ddtRaw, hsize, hdirection]

theorem rawToHost_of_none (h : rawRefusal s.cfg s.port.record.source z cnt = none) : rawToHost z cnt s =
    .next (s.setRecord { s.port.record with
      source := s.port.record.source + BitVec.ofNat 32 (cnt * z)
      buffer := ((List.range cnt).map fun k =>
        memRead s.cfg.endian s.mem (unitAddr s.port.record.source z .increment k) z) ++
          s.port.record.buffer.drop cnt }) := by
  simp only [rawToHost, h]
  rfl

theorem rawToHost_of_some {e : Refusal} (h : rawRefusal s.cfg s.port.record.source z cnt = some e) :
    rawToHost z cnt s = .refused e := by
  simp only [rawToHost, h]

theorem rawToMemory_of_none (h : rawRefusal s.cfg s.port.record.destination z cnt = none) : rawToMemory z cnt s =
    .next (((s.setMem ((List.range cnt).foldl (fun m k => memWrite s.cfg.endian m
        (unitAddr s.port.record.destination z .increment k) z (rawBufferWord s k)) s.mem)).setDraws
          (s.draws + (cnt - s.port.record.buffer.length))).setRecord { s.port.record with
            destination := s.port.record.destination + BitVec.ofNat 32 (cnt * z) }) := by
  simp only [rawToMemory, h]
  rfl

theorem rawToMemory_of_some {e : Refusal} (h : rawRefusal s.cfg s.port.record.destination z cnt = some e) :
    rawToMemory z cnt s = .refused e := by
  simp only [rawToMemory, h]

/-- A refused run of the side that the direction names refuses the transfer. -/
theorem ddtRaw_of_some (h : (s.port.record.size = 4 ∧ z = 4 ∧ cnt = s.port.record.length) ∨
      (s.port.record.size = 32 ∧ z = 8 ∧ cnt = 4 * s.port.record.length)) {e : Refusal}
    (he : rawRefusal s.cfg (if s.port.record.direction = .toHost then s.port.record.source
      else s.port.record.destination) z cnt = some e) : ddtRaw s = .refused e := by
  obtain ⟨htoHost, htoMemory⟩ := ddtRaw_of_pieces h
  cases hdirection : s.port.record.direction with
  | toHost =>
    rw [hdirection, if_pos rfl] at he
    exact (htoHost hdirection).trans (rawToHost_of_some he)
  | toMemory =>
    rw [hdirection, if_neg nofun] at he
    exact (htoMemory hdirection).trans (rawToMemory_of_some he)

end

/-- Settles O33: a word written by its bytes; the transfer by its size, its direction and its run. -/
theorem rawTransferMoves : Obligations.RawTransferMoves := by
  refine ⟨fun e m a z v x hz => ?word, ?transfer⟩
  case word =>
    have hle : z ≤ 8 := by
      simp only [List.mem_cons, List.not_mem_nil, or_false] at hz
      omega
    rw [byteAt_memWrite e m a z (by omega)]
    exact ite_congr rfl (fun hin => by rw [hostLane_of_word e hle hin]) fun _ => rfl
  case transfer =>
    rintro n s p z cnt rfl ha hraw
    rw [ddt_of_raw ha hraw]
    refine ⟨fun h4 h32 => (if_neg h4).trans (if_neg h32), fun hpieces => ?_⟩
    obtain ⟨htoHost, htoMemory⟩ := ddtRaw_of_pieces hpieces
    have hz : z ∈ [4, 8] := by
      rcases hpieces with ⟨-, rfl, -⟩ | ⟨-, rfl, -⟩ <;> decide
    have hle : z ≤ 8 := by
      simp only [List.mem_cons, List.not_mem_nil, or_false] at hz
      omega
    refine ⟨fun hdirection haligned hfree => ?host, fun hdirection haligned hfree => ?memory, fun hcnt a ha =>
      ⟨fun hmis => ?misaligned, fun haligned hmet => ?window⟩⟩
    case host =>
      refine ⟨_, (htoHost hdirection).trans (rawToHost_of_none (rawRefusal_of_free hz haligned hfree)), rfl,
        fun k hk => ⟨_, getElem?_filled_of_lt _ _ hk, fun i hi => ?_, fun j hj => memRead_high _ _ _ _ hj⟩,
        fun k hk => getElem?_filled_of_le _ _ hk⟩
      rw [hostLane_of_word _ hle hi, memRead_lane _ _ _ hle hi, unitAddr, BitVec.add_assoc, ← BitVec.ofNat_add]
    case memory =>
      exact ⟨_, fun k => Config.freeBufferWord (s.draws + (k - s.port.record.buffer.length)),
        (htoMemory hdirection).trans (rawToMemory_of_none (rawRefusal_of_free hz haligned hfree)), rfl⟩
    case misaligned => exact ddtRaw_of_some hpieces (ha ▸ rawRefusal_of_misaligned hcnt hmis)
    case window => exact ddtRaw_of_some hpieces (ha ▸ rawRefusal_of_window hz hcnt haligned hmet)

end Sys2Proof.Machine
end

section
/-! PROOFS of `MemoryFrameOfBursts` (O54) and `MemoryFrameOfHostTransfers` (O55). Memory changes by units written at
the addresses of a run; a byte in none of them stays. -/
namespace Sys2Proof.Machine
open Sys2Proof

/-! ## Runs of writes -/

/-- Writes of which none stores to a byte leave it. -/
theorem byteAt_foldl {α : Type} {f : Memory → α → Memory} {x : Word} {l : List α}
    (h : ∀ k ∈ l, ∀ m, byteAt (f m k) x = byteAt m x) (m : Memory) : byteAt (l.foldl f m) x = byteAt m x := by
  induction l generalizing m with
  | nil => rfl
  | cons k l ih =>
    obtain ⟨hk, hl⟩ := List.forall_mem_cons.1 h
    rw [List.foldl_cons, ih hl, hk]

/-- A block copy leaves every byte outside the units of its destination run. -/
theorem byteAt_copyBlock {cfg : Config} {m : Memory} {src dst : Word} {cnt z : Nat} {incs incd : Inc} {r : Copied}
    (hr : copyBlock cfg m src dst cnt z incs incd = some r) {x : Word}
    (h : ∀ k < cnt, ¬inSpan (unitAddr (dmaAlign cfg.dmaAddrMask dst z) z incd k) z x) :
    byteAt r.mem x = byteAt m x := by
  unfold copyBlock at hr
  dsimp only at hr
  split at hr
  · cases hr
  · cases hr
    exact byteAt_copyUnits h

/-! ## Start checks -/

/-- The start check of channel `n` may store to `x`: it would start a burst that does. -/
def CheckStores (s : State) (n : Chan) (x : Word) : Prop :=
  Enabled s n ∧ (s.chan n).active = false ∧ requestSelect s n ∈ [4, 5, 6] ∧ BurstStores s n x

/-- A start check leaves every byte that it may not store to. -/
theorem byteAt_checkChannel {s t : State} {n : Chan} {x : Word} (h : checkChannel n s = .next t)
    (hx : ¬CheckStores s n x) : byteAt t.mem x = byteAt s.mem x := by
  rcases check_cases s n with ⟨he, ha⟩ | ⟨he, ha⟩ | ⟨he, hheld⟩ | ⟨hready, hsel⟩ | ⟨hready, hsel⟩
  · cases (check_disabled_idle he ha).symm.trans h
    rfl
  · cases (check_disabled_active he ha).symm.trans h
    rfl
  · cases (check_held he hheld).symm.trans h
    rfl
  · rw [check_burst hready hsel] at h
    rcases transfer_burst_next h with ⟨d, -, rfl⟩ | ⟨p, r, hp, hr, rfl⟩
    · rfl
    · rw [writeBack_frame]
      exact byteAt_copyBlock hr fun k hk hin => hx ⟨hready.1, hready.2.1, hsel, p, hp, k, hk, hin⟩
  · cases (check_device hready hsel).symm.trans h
    unfold transferDevice
    split <;> rfl

/-- What a start check may store to is read from the parameters, the channel and four registers. -/
theorem checkStores_congr {s t : State} {n : Chan} (hcfg : t.cfg = s.cfg) (hchan : t.chan n = s.chan n)
    (hr : ∀ r ∈ [Reg.dar n, .dmatcr n, .chcr n], t.reg r = s.reg r)
    (hdme : bit (t.reg .dmaor) 0 = bit (s.reg .dmaor) 0) (x : Word) : CheckStores t n x ↔ CheckStores s n x := by
  simp only [List.forall_mem_cons] at hr
  obtain ⟨hdar, hdmatcr, hchcr, -⟩ := hr
  unfold CheckStores Enabled requestSelect BurstStores
  rw [hcfg, hchan, dmaSetup_congr hchcr hdmatcr, hdar, hchcr, hdme]

/-- The start check of one channel leaves what another one may store to. -/
theorem checkStores_of_checkChannel {s t : State} {m n : Chan} (hs : s.cfg.separate = true) (hne : n ≠ m)
    (h : checkChannel m s = .next t) (x : Word) : CheckStores t n x ↔ CheckStores s n x := by
  have hw := within_check h
  have hreg : ∀ r ∈ [Reg.dar n, .dmatcr n, .chcr n, .dmaor], t.reg r = s.reg r := fun r hr =>
    within_reg hw (by
      simp only [List.mem_cons, List.not_mem_nil, or_false] at hr
      rcases hr with rfl | rfl | rfl | rfl <;> simp [checkEffect, index_inj hs, hne])
  exact checkStores_congr hw.cfg (hw.chans n (by simpa [checkEffect] using hne))
    (fun r hr => hreg r (by simp only [List.mem_cons, List.not_mem_nil, or_false] at hr ⊢; tauto))
    (by rw [hreg .dmaor (by simp)]) x

/-- The checks of several channels leave every byte that none of them may store to. -/
theorem byteAt_checkEach {ns : List Chan} (hns : ns.Nodup) {s t : State} (hs : s.cfg.separate = true) {x : Word}
    (h : checkEach ns s = .next t) (hx : ∀ n ∈ ns, ¬CheckStores s n x) : byteAt t.mem x = byteAt s.mem x := by
  induction ns generalizing s with
  | nil =>
    cases h
    rfl
  | cons m ns ih =>
    obtain ⟨hm, hns⟩ := List.nodup_cons.1 hns
    obtain ⟨hfirst, hrest⟩ := List.forall_mem_cons.1 hx
    obtain ⟨u, hu, h⟩ := andThen_inv h
    rw [ih hns (by rwa [(within_check hu).cfg]) h fun n hn => ?_, byteAt_checkChannel hu hfirst]
    rw [checkStores_of_checkChannel hs (ne_of_mem_of_not_mem hn hm) hu]
    exact hrest n hn

/-- The handler of a register's write leaves every byte that none of its checks may store to. -/
theorem byteAt_writeHandler {r : Reg} {old new t : State} (hchecks : r.checks ≠ []) (hs : new.cfg.separate = true)
    {x : Word} (h : writeHandler r old new = .next t) (hx : ∀ n ∈ r.checks, ¬CheckStores new n x) :
    byteAt t.mem x = byteAt new.mem x := by
  cases r with
  | sar n | dar n | dmatcr n | chcr n => exact byteAt_checkChannel h (hx n (List.mem_singleton_self n))
  | dmaor =>
    rw [writeHandler, checkAll_eq_checkEach] at h
    refine byteAt_checkEach (s := new.setReg _ _) (by decide) hs h fun n hn => ?_
    refine (checkStores_congr (s := new) (t := new.setReg .dmaor (dmaorKept (old.reg .dmaor) (new.reg .dmaor))) rfl rfl
      (fun r hr => ?_) ?_ x).not.2 (hx n hn)
    · rw [setReg_reg hs, if_neg]
      rintro rfl
      simp at hr
    · rw [setReg_reg_same, bit_dmaorKept]
      simp
  | _ => exact absurd rfl hchecks

/-- Settles O54: the write is not one without a handler; its handler runs the checks on the state stored. -/
theorem memoryFrameOfBursts : Obligations.MemoryFrameOfBursts := by
  rintro i b r s s1 t hexec hs hb hr hchecks rfl x hx
  rw [checks_of_writesReg hr] at hchecks hx
  have htarget : b.write = true ∧ b.target = some r := by
    simpa [Instr.writesReg, hb] using hr
  rcases busAccess_next hb hexec with ⟨hread, -⟩ | ⟨-, hnone, -⟩ | ⟨-, hwired, -⟩ | ⟨-, r', hr', -, -, -, hhandler⟩
  · cases hread.symm.trans htarget.1
  · cases hnone.symm.trans htarget.2
  · rw [htarget.2] at hwired
    rcases hwired with h | h | h <;> cases h <;> exact absurd rfl hchecks
  · cases hr'.symm.trans htarget.2
    rw [storeMasked_index] at hhandler
    exact byteAt_writeHandler (new := s.stored r b.width b.addr b.data) hchecks hs hhandler
      fun n hn ⟨he, ha, hsel, hstores⟩ => hx n hn he ha hsel hstores

/-! ## The host's transfers -/

/-- `DMA_DATA` leaves every byte outside the units of its run from the device to memory. -/
theorem byteAt_pump {n : Chan} {s t : State} (h : exec (.dmaData n) s = .next t) {x : Word}
    (hx : (s.chan n).active = true → (s.chan n).kind = .device → (s.chan n).devMode ≠ 2 →
      ∀ k < min (s.chan n).devCount s.port.buffer.length,
        ¬inSpan (pumpAddr s.cfg (s.chan n).devDst (s.chan n).devSize (s.chan n).devIncd k) (s.chan n).devSize x) :
    byteAt t.mem x = byteAt s.mem x := by
  by_cases hflight : (s.chan n).active = false ∨ (s.chan n).kind ≠ .device
  · cases (pump_not_device hflight).symm.trans h
    rfl
  · rw [not_or, Bool.not_eq_false, not_not] at hflight
    obtain ⟨ha, hk⟩ := hflight
    by_cases hm : (s.chan n).devMode = 2
    · rw [pump_memory_to_device ha hk hm, pumpToDevice] at h
      dsimp only at h
      split at h
      · cases h
      · cases h
        rfl
    · rw [pump_device_to_memory ha hk hm, pumpToMemory] at h
      dsimp only at h
      split at h
      · cases h
      · cases h
        exact byteAt_foldl (fun k hk' m => byteAt_writeUnit (hx ha hk hm k (List.mem_range.1 hk'))) s.mem

/-- A direct transfer that is not raw leaves every byte outside the units of its destination run. -/
theorem byteAt_ddtTransfer {n : Chan} {s t : State} (hs : s.cfg.separate = true) (h : ddtTransfer n s = .next t)
    {x : Word} (hx : ∀ q, dmaSetup s n = .ok q → ∀ k < q.count,
      ¬inSpan (unitAddr (dmaAlign s.cfg.dmaAddrMask
        (if s.port.record.rdDst then s.reg (.dar n) else s.port.record.destination) q.size) q.size q.incd k) q.size x) :
    byteAt t.mem x = byteAt s.mem x := by
  obtain ⟨hcfg, hmem, -, hport, hsetup, -⟩ := ddtAddresses_leaves hs rfl rfl
  obtain ⟨s1, haddr⟩ : ∃ s1, ddtAddresses n s = s1 := ⟨_, rfl⟩
  rw [haddr] at hcfg hmem hport hsetup
  rw [← hmem]
  cases hlen : ddtLengthOk n s1 with
  | false =>
    cases (ddtTransfer_of_mismatch haddr hlen).symm.trans h
    rfl
  | true =>
    cases hq : dmaSetup s1 n with
    | error d =>
      cases (ddtTransfer_of_error haddr hlen hq).symm.trans h
      rfl
    | ok q =>
      cases hcopy : copyBlock s1.cfg s1.mem s1.port.record.source s1.port.record.destination q.count q.size q.incs
          q.incd with
      | none => cases (ddtTransfer_of_window haddr hlen hq hcopy).symm.trans h
      | some r =>
        cases (ddtTransfer_of_copy haddr hlen hq hcopy).symm.trans h
        refine byteAt_copyBlock hcopy ?_
        rw [hcfg, hport]
        exact hx q (hsetup.symm.trans hq)

/-- A raw transfer of pieces leaves every byte outside the pieces that it writes. -/
theorem byteAt_rawToMemory {z cnt : Nat} {s t : State} (h : rawToMemory z cnt s = .next t) {x : Word}
    (hx : ¬∃ k < cnt, inSpan (unitAddr s.port.record.destination z .increment k) z x) :
    byteAt t.mem x = byteAt s.mem x := by
  cases hrefusal : rawRefusal s.cfg s.port.record.destination z cnt with
  | some e => cases (rawToMemory_of_some hrefusal).symm.trans h
  | none =>
    cases (rawToMemory_of_none hrefusal).symm.trans h
    refine byteAt_foldl (fun k hk m => byteAt_memWrite_of_not_mem _ fun i => ne_of_not_inSpan fun hin => ?_) s.mem
    exact hx ⟨k, List.mem_range.1 hk, hin⟩

theorem mem_of_rawToHost {z cnt : Nat} {s t : State} (h : rawToHost z cnt s = .next t) : t.mem = s.mem := by
  cases hrefusal : rawRefusal s.cfg s.port.record.source z cnt with
  | some e => cases (rawToHost_of_some hrefusal).symm.trans h
  | none =>
    cases (rawToHost_of_none hrefusal).symm.trans h
    rfl

/-- A raw transfer leaves every byte outside the words, or the pieces of blocks, that it writes to memory. -/
theorem byteAt_ddtRaw {s t : State} (h : ddtRaw s = .next t) {x : Word}
    (hx : s.port.record.direction = .toMemory →
      (s.port.record.size = 4 →
        ¬∃ k < s.port.record.length, inSpan (unitAddr s.port.record.destination 4 .increment k) 4 x) ∧
      (s.port.record.size = 32 →
        ¬∃ k < 4 * s.port.record.length, inSpan (unitAddr s.port.record.destination 8 .increment k) 8 x)) :
    byteAt t.mem x = byteAt s.mem x := by
  by_cases hsize : s.port.record.size = 4 ∨ s.port.record.size = 32
  · obtain ⟨z, cnt, hpieces, hrun⟩ : ∃ z cnt, ((s.port.record.size = 4 ∧ z = 4 ∧ cnt = s.port.record.length) ∨
        (s.port.record.size = 32 ∧ z = 8 ∧ cnt = 4 * s.port.record.length)) ∧
        (s.port.record.direction = .toMemory →
          ¬∃ k < cnt, inSpan (unitAddr s.port.record.destination z .increment k) z x) := by
      rcases hsize with hsize | hsize
      · exact ⟨_, _, .inl ⟨hsize, rfl, rfl⟩, fun hd => (hx hd).1 hsize⟩
      · exact ⟨_, _, .inr ⟨hsize, rfl, rfl⟩, fun hd => (hx hd).2 hsize⟩
    obtain ⟨htoHost, htoMemory⟩ := ddtRaw_of_pieces hpieces
    cases hdirection : s.port.record.direction with
    | toHost => rw [mem_of_rawToHost ((htoHost hdirection).symm.trans h)]
    | toMemory => exact byteAt_rawToMemory ((htoMemory hdirection).symm.trans h) (hrun hdirection)
  · rw [not_or] at hsize
    have hnone : ddtRaw s = .next s := (if_neg hsize.1).trans (if_neg hsize.2)
    cases hnone.symm.trans h
    rfl

/-- Settles O55: the pump by its cases; a direct transfer by its channel and its record. -/
theorem memoryFrameOfHostTransfers : Obligations.MemoryFrameOfHostTransfers := by
  constructor
  · rintro n s t c h rfl x hx
    exact byteAt_pump h hx
  · rintro n s t p h hs rfl x hcopy hraw
    cases ha : (s.chan n).active with
    | true =>
      cases (ddt_of_active ha).symm.trans h
      rfl
    | false =>
      cases hr : s.port.record.raw with
      | true => exact byteAt_ddtRaw ((ddt_of_raw ha hr).symm.trans h) (hraw ha hr)
      | false => exact byteAt_ddtTransfer hs ((ddt_not_raw ha hr).symm.trans h) (hcopy ha hr)

end Sys2Proof.Machine
end

section
/-! SUPPORT. What a well-formed bus operation on a named register does: a write stores and runs the register's handler,
a read answers the register's value. -/
namespace Sys2Proof.Machine
open Sys2Proof

theorem exec_write_of_wellFormed {i : Instr} {r : Reg} {w : Width} {a d : Word} {s : State}
    (h : i.busAccess = some ⟨true, some r, w, a, d⟩) (hr : r ∉ hardWired) (wf : i.wellFormed s.cfg = true) :
    exec i s = writeHandler r s (s.stored r w a d) := by
  have hok := busRefusal_of_wellFormed h wf
  have hbus : busMeaning ⟨true, some r, w, a, d⟩ s = busWrite (s.cfg.index r) w a d (writeHandler r) s := by
    cases r with
    | pvr => exact absurd (by decide) hr
    | prr => exact absurd (by decide) hr
    | rsvz => exact absurd (by decide) hr
    | _ => rfl
  rw [exec_busAccess h, hbus, busWrite_of_none hok]
  rfl

theorem exec_read_of_wellFormed {i : Instr} {r : Reg} {w : Width} {a d : Word} {s : State}
    (h : i.busAccess = some ⟨false, some r, w, a, d⟩) (wf : i.wellFormed s.cfg = true) :
    exec i s = .next (s.emit (.readData (laneRead s.cfg.endian w a (readValue r s)))) := by
  rw [exec_busAccess h]
  exact busRead_of_none (busRefusal_of_wellFormed h wf) _

theorem cell_index (s : State) (r : Reg) : s.cell (s.cfg.index r) = s.reg r := rfl

/-- The part of the store that a handler keeps. -/
theorem stored_masked (s : State) (r : Reg) (w : Width) (a d m : Word) :
    (s.stored r w a d).setReg r ((s.stored r w a d).reg r &&& m) = s.setReg r ((s.stored r w a d).reg r &&& m) :=
  setReg_setReg ..

/-- "store masked data" leaves every other named register. -/
theorem stored_reg {s : State} (hs : s.cfg.separate = true) (r k : Reg) (h : k ≠ r) (w : Width) (a d : Word) :
    (s.stored r w a d).reg k = s.reg k := by
  rw [State.stored, setReg_reg hs, if_neg h]

end Sys2Proof.Machine
end

section
/-! PROOFS of `TmuExpiryReloads` (O36), `StartWriteArmsAndStops` (O40), `CountWriteRearms` (O41) and
`ControlWriteSnapshots` (O42): the TMU channels. -/
namespace Sys2Proof.Machine
open Sys2Proof

/-! ## The expiry (42_timers R245) -/

/-- The expiry of channel `n` but for its request: reloaded, armed, the underflow flag set. -/
def tmuReloaded (n : TmuChan) (s : State) : State :=
  ((s.setReg (.tcnt n) (s.reg (.tcor n))).setReg (.tcr n) (s.reg (.tcr n) ||| 0x100)).setTimer n
    (armedTimer s n (s.reg (.tcor n)) (s.reg (.tcr n)))

theorem putUnf_true (v : Word) : putUnf v true = v ||| 0x100 := rfl

/-- The underflow flag is not the interrupt enable. -/
theorem tcrUnie_or_unf (v : Word) : tcrUnie (v ||| 0x100) = bit v 5 := bit_putBit_true v 8 5 (by decide)

/-- The channel armed from a count just stored. -/
theorem tmuArm_setReg_tcnt (n : TmuChan) {s : State} (hs : s.cfg.separate = true) (v : Word) :
    tmuArm n (s.setReg (.tcnt n) v) =
      (s.setReg (.tcnt n) v).setTimer n (armedTimer s n v (s.reg (.tcr n))) := by
  rw [tmuArm_eq, setReg_reg_same, setReg_reg hs, if_neg nofun]
  rfl

/-- The expiry, the registers being apart: the interrupt enable decides on the request. -/
theorem tmuExpire_eq (n : TmuChan) {s : State} (hs : s.cfg.separate = true) : tmuExpire n s =
    if bit (s.reg (.tcr n)) 5 then requestSource (srcTuni n) (tmuReloaded n s) else tmuReloaded n s := by
  have htcr : (s.setReg (.tcnt n) (s.reg (.tcor n))).reg (.tcr n) = s.reg (.tcr n) := by
    rw [setReg_reg hs, if_neg nofun]
  unfold tmuExpire
  simp only [tmuArm_setReg_tcnt n hs, setTimer_reg, htcr, setReg_reg_same, tcrUnie_or_unf, putUnf_true]
  rfl

/-- Settles O36: the timer is due, and its expiry reloads. -/
theorem tmuExpiryReloads : Obligations.TmuExpiryReloads := by
  rintro n s u deadline hs hdeadline hdue rfl
  have hexec : exec (.fire (.tmu n)) s = .next (tmuExpire n s) := fire_of_due (t := .tmu n) hdeadline hdue
  rw [tmuExpire_eq n hs] at hexec
  refine ⟨rfl, _, hexec, fun hunie => ?_, fun hunie => ?_⟩
  · rw [if_pos hunie]
    exact exec_request ..
  · rw [hunie]
    rfl

/-! ## The start bits (42_timers R246) -/

/-- What the rule of `TSTR` makes of a channel, from the word before the write and the one after it. -/
def startedTimer (old new : Word) (s : State) (n : TmuChan) : TmuChannel :=
  if bit old n.val = false ∧ bit new n.val = true then armedTimer s n (s.reg (.tcnt n)) (s.reg (.tcr n))
  else if bit old n.val = true ∧ bit new n.val = false then { s.timer n with deadline := none }
  else s.timer n

/-- What the rule of `TSTR` makes of a channel's count. -/
def startedCount (old new : Word) (s : State) (n : TmuChan) : Word :=
  if bit old n.val = true ∧ bit new n.val = false then tmuLive n s else s.reg (.tcnt n)

theorem startedTimer_congr {n : TmuChan} {s u : State} (h : SameTimer n s u) (old new : Word) :
    startedTimer old new u n = startedTimer old new s n := by
  unfold startedTimer
  rw [h.timer, h.tcnt, h.tcr, armedTimer_congr h.timer h.now h.cfg]

theorem startedCount_congr {n : TmuChan} {s u : State} (h : SameTimer n s u) (old new : Word) :
    startedCount old new u n = startedCount old new s n := by
  unfold startedCount
  rw [h.tcnt, tmuLive_congr h.timer h.tcnt h.tcr h.now h.cfg]

/-- The rule of `TSTR` for one channel: its timer, its count, and nothing else. -/
theorem tstrChannel_spec (old : Word) (u : State) (n : TmuChan) :
    tstrChannel old u n = { u with tmu := (tstrChannel old u n).tmu, regs := (tstrChannel old u n).regs } ∧
    (tstrChannel old u n).timer n = startedTimer old (u.reg .tstr) u n ∧
    (tstrChannel old u n).reg (.tcnt n) = startedCount old (u.reg .tstr) u n := by
  rw [tstrChannel_eq]
  unfold startedTimer startedCount
  by_cases hrise : bit old n.val = false ∧ bit (u.reg .tstr) n.val = true
  · have hfall : ¬(bit old n.val = true ∧ bit (u.reg .tstr) n.val = false) := by simp [hrise.1]
    simp only [if_pos hrise, if_neg hfall]
    exact ⟨rfl, setTimer_timer_same .., rfl⟩
  · by_cases hfall : bit old n.val = true ∧ bit (u.reg .tstr) n.val = false
    · simp only [if_neg hrise, if_pos hfall]
      exact ⟨rfl, setTimer_timer_same .., setReg_reg_same ..⟩
    · simp only [if_neg hrise, if_neg hfall, and_self]

/-- The rule of `TSTR` channel by channel, each of a list once. -/
theorem tstrChannels_spec (old : Word) {l : List TmuChan} (hl : l.Nodup) {u t : State} (hs : u.cfg.separate = true)
    (ht : t = l.foldl (tstrChannel old) u) :
    t = { u with tmu := t.tmu, regs := t.regs } ∧
    (∀ n ∈ l, t.timer n = startedTimer old (u.reg .tstr) u n ∧
      t.reg (.tcnt n) = startedCount old (u.reg .tstr) u n) ∧
    (∀ n ∉ l, t.timer n = u.timer n) ∧
    ∀ i, i ∉ l.map (fun n => u.cfg.index (.tcnt n)) → t.cell i = u.cell i := by
  induction l generalizing u with
  | nil =>
    subst ht
    exact ⟨rfl, fun n hn => absurd hn List.not_mem_nil, fun _ _ => rfl, fun _ _ => rfl⟩
  | cons m l ih =>
    obtain ⟨hm, hl⟩ := List.nodup_cons.1 hl
    obtain ⟨hframe, htimer, hcount⟩ := tstrChannel_spec old u m
    have hw := within_tstrStep old u m
    rw [List.foldl_cons] at ht
    generalize tstrChannel old u m = v at hframe htimer hcount hw ht
    have hcfg : v.cfg = u.cfg := hw.cfg
    obtain ⟨ihframe, ihdone, ihtimer, ihcell⟩ := ih hl (hcfg ▸ hs) ht
    have htstr : v.reg .tstr = u.reg .tstr := within_reg hw (by simp [tstrEffect, index_inj hs])
    rw [hcfg] at ihcell
    refine ⟨?_, fun n hn => ?_, fun n hn => ?_, fun i hi => ?_⟩
    · rw [ihframe, hframe]
    · by_cases hne : n = m
      · subst hne
        refine ⟨(ihtimer n hm).trans htimer, ?_⟩
        rw [← hcount]
        have htcfg : t.cfg = v.cfg := by rw [ihframe]
        unfold State.reg
        rw [htcfg, hcfg]
        exact ihcell _ (by simp [index_inj hs, hm])
      · have hsame : SameTimer n u v := SameTimer.of_within ⟨rfl, rfl, rfl, rfl, rfl⟩ hw (by simp [tstrEffect, hne])
          (by simp [tstrEffect, index_inj hs, hne]) (by simp [tstrEffect, index_inj hs])
        rw [← startedTimer_congr hsame, ← startedCount_congr hsame, ← htstr]
        exact ihdone n ((List.mem_cons.1 hn).resolve_left hne)
    · rw [List.mem_cons, not_or] at hn
      exact (ihtimer n hn.2).trans (hw.timers n (by simp [tstrEffect, hn.1]))
    · rw [List.map_cons, List.mem_cons, not_or] at hi
      exact (ihcell i hi.2).trans (hw.cells i (by simp [tstrEffect, hi.1]))

/-- Settles O40: the store leaves every channel as it was, and the rule comes to each of them once. -/
theorem startWriteArmsAndStops : Obligations.StartWriteArmsAndStops := by
  rintro w a d s s1 hwf hs rfl
  have hexec : exec (.wrTstr w a d) s = .next (tstrWritten s (s.stored .tstr w a d)) :=
    exec_write_of_wellFormed (r := .tstr) rfl (by decide) hwf
  have hsep : (s.stored .tstr w a d).cfg.separate = true := hs
  obtain ⟨hframe, hdone, -, hcell⟩ := tstrChannels_spec (s.reg .tstr) (l := [0, 1, 2]) (by decide) hsep rfl
  have hall : ∀ n : TmuChan, n ∈ [0, 1, 2] := by decide
  have hsame : ∀ n, SameTimer n s (s.stored .tstr w a d) := fun n =>
    ⟨rfl, rfl, rfl, stored_reg hs .tstr (.tcnt n) nofun w a d,
      stored_reg hs .tstr (.tcr n) nofun w a d⟩
  refine ⟨_, hexec, hframe, fun n => ?_, fun n => ?_, hcell⟩
  · exact (hdone n (hall n)).1.trans (startedTimer_congr (hsame n) ..)
  · exact (hdone n (hall n)).2.trans (startedCount_congr (hsame n) ..)

/-! ## The counts and the control words (42_timers R247, R248) -/

/-- Settles O41: the store, then `TMU_ARM` from the word stored. -/
theorem countWriteRearms : Obligations.CountWriteRearms := by
  rintro p hp w a d s s1 hwf hs rfl
  have hexec : exec (p.1 w a d) s = .next (tcntWritten p.2 (s.stored (.tcnt p.2) w a d)) :=
    exec_write_of_wellFormed (busAccess_countWrite hp w a d) (by simp [hardWired]) hwf
  rw [hexec, tcntWritten, tmuArm_eq, stored_reg hs (.tcnt p.2) .tstr nofun, stored_reg hs (.tcnt p.2) (.tcr p.2) nofun]
  rfl

/-- A write of the control word but for its withdrawal: a started channel is armed from the count `cnt`, which is
stored where the channel was armed. -/
def tcrRearmed (n : TmuChan) (cnt : Word) (s s1 : State) : State :=
  if bit (s.reg .tstr) n.val then
    (if (s.timer n).deadline.isSome then s1.setReg (.tcnt n) cnt else s1).setTimer n
      (armedTimer s n cnt (s1.reg (.tcr n)))
  else s1

theorem tcrWritten_eq (n : TmuChan) {s s1 : State} {w : Width} {a d cnt : Word} (hs : s.cfg.separate = true)
    (hs1 : s1 = s.stored (.tcr n) w a d)
    (hcnt : cnt = if (s.timer n).deadline.isSome then tmuLive n s else s.reg (.tcnt n)) :
    tcrWritten n s s1 =
      if bit (s1.reg (.tcr n)) 8 = false ∨ bit (s1.reg (.tcr n)) 5 = false then
        unrequestSource (srcTuni n) (tcrRearmed n cnt s s1)
      else tcrRearmed n cnt s s1 := by
  have hrearmed : (if tstrStr (s1.reg .tstr) n then
      tmuArm n (if (s.timer n).deadline.isSome then s1.setReg (.tcnt n) (tmuLive n s) else s1)
      else s1) = tcrRearmed n cnt s s1 := by
    have htstr : s1.reg .tstr = s.reg .tstr := hs1 ▸ stored_reg hs (.tcr n) .tstr nofun w a d
    have htcnt : s1.reg (.tcnt n) = s.reg (.tcnt n) := hs1 ▸ stored_reg hs (.tcr n) (.tcnt n) nofun w a d
    have hsame : ∀ v, armedTimer s1 n v (s1.reg (.tcr n)) = armedTimer s n v (s1.reg (.tcr n)) := fun v => by
      refine armedTimer_congr ?_ ?_ ?_ .. <;> rw [hs1] <;> rfl
    unfold tcrRearmed
    rw [htstr]
    by_cases harmed : (s.timer n).deadline.isSome = true
    · have hsep : s1.cfg.separate = true := hs1 ▸ hs
      simp only [if_pos harmed] at hcnt ⊢
      rw [tmuArm_setReg_tcnt n hsep, hsame, hcnt]
      rfl
    · simp only [if_neg harmed] at hcnt ⊢
      rw [tmuArm_eq, htcnt, hsame, hcnt]
      rfl
  have htcr : (tcrRearmed n cnt s s1).reg (.tcr n) = s1.reg (.tcr n) := by
    have hsep : s1.cfg.separate = true := hs1 ▸ hs
    unfold tcrRearmed
    split_ifs
    · rw [setTimer_reg, setReg_reg hsep, if_neg nofun]
    · rfl
    · rfl
  unfold tcrWritten
  simp only [hrearmed, htcr, Bool.or_eq_true, Bool.not_eq_true']
  rfl

/-- Settles O42: the snapshot and the arming, then the acknowledge by the word stored. -/
theorem controlWriteSnapshots : Obligations.ControlWriteSnapshots := by
  rintro p hp w a d s s1 u n cnt hwf hs rfl hs1 hcnt hu
  have hexec : exec (p.1 w a d) s = .next (tcrWritten p.2 s s1) :=
    hs1 ▸ exec_write_of_wellFormed (busAccess_controlWrite hp w a d) (by simp [hardWired]) hwf
  have hrearmed : u = tcrRearmed p.2 cnt s s1 := hu
  rw [tcrWritten_eq p.2 hs hs1 hcnt, ← hrearmed] at hexec
  refine ⟨_, hexec, fun hclear => ?_, fun hunf hunie => ?_⟩
  · rw [if_pos hclear]
    exact exec_unrequest ..
  · rw [if_neg (by simp [hunf, hunie])]

end Sys2Proof.Machine
end

section
/-! PROOFS of `RefreshExpiryCounts` (O37), `RefreshControlSnapshots` (O43) and `RefreshCountWrites` (O44): the bus
refresh timer. -/
namespace Sys2Proof.Machine
open Sys2Proof

/-! ## The counter (42_timers R256) -/

/-- The counter comes to its threshold exactly where its value does. -/
theorem refThreshold_ofNat (lmts : Bool) {v : Nat} (hv : v < 1024) :
    refThreshold lmts (BitVec.ofNat 32 v) = ((lmts && decide (v = 512)) || (!lmts && decide (v = 0))) := by
  have heq : ∀ k < 1024, BitVec.ofNat 32 v = BitVec.ofNat 32 k ↔ v = k := fun k hk => by
    rw [← BitVec.toNat_inj, BitVec.toNat_ofNat, BitVec.toNat_ofNat, Nat.mod_eq_of_lt (by omega),
      Nat.mod_eq_of_lt (by omega)]
  unfold refThreshold
  congr 2
  · exact decide_eq_decide.2 (heq 512 (by decide))
  · exact decide_eq_decide.2 (heq 0 (by decide))

theorem putOvf_true (v : Word) : putOvf v true = v ||| 4 := rfl

/-- The refresh-counter part of the expiry: off, it does nothing; on, it counts, or comes to its threshold. -/
theorem refCount_eq {s : State} (hs : s.cfg.separate = true) {v : Nat} {hit counting : Bool}
    (hcounting : counting = mcrCounterMode (s.reg .mcr)) (hv : v = ((s.reg .rfcr).toNat + 1) % 1024)
    (hhit : hit = (counting && refThreshold (rtcsrLmts (s.reg .rtcsr)) (BitVec.ofNat 32 v))) :
    refCount s =
      if hit then (s.setReg .rfcr 0).setReg .rtcsr (s.reg .rtcsr ||| 4)
      else if counting then s.setReg .rfcr (BitVec.ofNat 32 v) else s := by
  have hrtcsr : ∀ x, (s.setReg .rfcr x).reg .rtcsr = s.reg .rtcsr := fun x => by rw [setReg_reg hs, if_neg nofun]
  unfold refCount
  rw [← hcounting, ← hv]
  cases counting with
  | false => rw [hhit]; rfl
  | true =>
    rw [Bool.true_and] at hhit
    simp only [if_true, hrtcsr, setReg_reg_same, setReg_setReg, ← hhit, putOvf_true]

/-- The expiry but for its counter: the count zero, the timer armed from it, the compare flag set. -/
def refRestarted (s : State) : State :=
  ((s.setReg .rtcnt 0).setRefresh (armedRefresh s (s.reg .rtcor) 0 (s.reg .rtcsr))).setReg .rtcsr
    (s.reg .rtcsr ||| 0x80)

theorem refRestarted_cell (s : State) (i : Nat) : (refRestarted s).cell i =
    if i = s.cfg.index .rtcsr then s.reg .rtcsr ||| 0x80 else if i = s.cfg.index .rtcnt then 0 else s.cell i := by
  simp only [refRestarted, setReg_cell, setRefresh_cell, setRefresh_cfg, setReg_cfg]

theorem refRestarted_reg {s : State} (hs : s.cfg.separate = true) {r : Reg} (hcnt : r ≠ .rtcnt) (hcsr : r ≠ .rtcsr) :
    (refRestarted s).reg r = s.reg r := by
  have hcell := refRestarted_cell s (s.cfg.index r)
  rwa [if_neg (mt (index_inj hs).1 hcsr), if_neg (mt (index_inj hs).1 hcnt)] at hcell

theorem putCmf_true (v : Word) : putCmf v true = v ||| 0x80 := rfl

/-- The compare flag is not the select of the threshold. -/
theorem rtcsrLmts_or_cmf (v : Word) : rtcsrLmts (v ||| 0x80) = bit v 0 := bit_putBit_true v 7 0 (by decide)

/-- The refresh timer armed from a count just stored. -/
theorem refArm_setReg_rtcnt {s : State} (hs : s.cfg.separate = true) (v : Word) :
    refArm (s.setReg .rtcnt v) =
      (s.setReg .rtcnt v).setRefresh (armedRefresh s (s.reg .rtcor) v (s.reg .rtcsr)) := by
  rw [refArm_eq, setReg_reg_same, setReg_reg hs, if_neg nofun, setReg_reg hs, if_neg nofun]
  rfl

theorem refExpire_eq {s : State} (hs : s.cfg.separate = true) : refExpire s = refCount (refRestarted s) := by
  have hrtcsr : (s.setReg .rtcnt 0).reg .rtcsr = s.reg .rtcsr := by rw [setReg_reg hs, if_neg nofun]
  unfold refExpire refRestarted
  simp only [refArm_setReg_rtcnt hs, setRefresh_reg, hrtcsr, putCmf_true]

/-- Settles O37: the timer is due; restarted, it counts. -/
theorem refreshExpiryCounts : Obligations.RefreshExpiryCounts := by
  intro s deadline v hit counting hs hdeadline hdue hcounting hv hhit
  have hexec : exec (.fire .ref) s = .next (refExpire s) := fire_of_due (t := .ref) hdeadline hdue
  have hsep : (refRestarted s).cfg.separate = true := hs
  have hrtcsr : (refRestarted s).reg .rtcsr = s.reg .rtcsr ||| 0x80 := setReg_reg_same ..
  have hcount : refCount (refRestarted s) = _ := refCount_eq hsep (v := v) (hit := hit) (counting := counting)
    (by rw [refRestarted_reg hs (r := .mcr) nofun nofun, hcounting]; rfl)
    (by rw [refRestarted_reg hs (r := .rfcr) nofun nofun, hv])
    (by rw [hhit, hrtcsr, rtcsrLmts_or_cmf, refThreshold_ofNat _ (hv ▸ Nat.mod_lt _ (by decide))])
  have hor : ∀ x : Word, x ||| 0x80 ||| 4 = x ||| 0x84 := fun x => BitVec.or_assoc ..
  rw [refExpire_eq hs, hcount, hrtcsr, hor] at hexec
  have hcsrCnt : s.cfg.index .rtcnt ≠ s.cfg.index .rtcsr := mt (index_inj hs).1 nofun
  have hcrCnt : s.cfg.index .rtcnt ≠ s.cfg.index .rfcr := mt (index_inj hs).1 nofun
  have hcrCsr : s.cfg.index .rtcsr ≠ s.cfg.index .rfcr := mt (index_inj hs).1 nofun
  have hcfg : (refRestarted s).cfg = s.cfg := rfl
  refine ⟨_, hexec, ?frame, fun i => ?cells⟩
  case frame =>
    split_ifs <;> rfl
  case cells =>
    rw [apply_ite (fun u : State => u.cell i), apply_ite (fun u : State => u.cell i)]
    simp only [setReg_cell, setReg_cfg, hcfg, refRestarted_cell]
    by_cases hcnt : i = s.cfg.index .rtcnt
    · simp [hcnt, hcsrCnt, hcrCnt]
    · by_cases hcsr : i = s.cfg.index .rtcsr
      · cases hit <;> simp [hcsr, hcsrCnt.symm, hcrCsr]
      · by_cases hcr : i = s.cfg.index .rfcr
        · simp [hcr, hcrCnt.symm, hcrCsr.symm, cell_index]
        · simp [hcnt, hcsr, hcr]

/-! ## The writes (42_timers R258 to R261) -/

/-- A write of `RTCSR` but for the timer: the word `v`, and the live count where the timer was active. -/
def rtcsrStored (v : Word) (s : State) : State :=
  if refActive s then (s.setReg .rtcsr v).setReg .rtcnt (refLive s) else s.setReg .rtcsr v

theorem rtcsrStored_frame (v : Word) (s : State) : rtcsrStored v s = { s with regs := (rtcsrStored v s).regs } := by
  unfold rtcsrStored
  split <;> rfl

/-- The count that it leaves is the one that `RTCNT` read before. -/
theorem rtcsrStored_cell {s : State} (hs : s.cfg.separate = true) (v : Word) (i : Nat) : (rtcsrStored v s).cell i =
    if i = s.cfg.index .rtcsr then v else if i = s.cfg.index .rtcnt then rtcntValue s else s.cell i := by
  have hne : s.cfg.index .rtcnt ≠ s.cfg.index .rtcsr := mt (index_inj hs).1 nofun
  rw [rtcsrStored, rtcntValue, apply_ite (fun u : State => u.cell i)]
  simp only [setReg_cell, setReg_cfg]
  by_cases hi : i = s.cfg.index .rtcnt
  · simp [hi, hne, cell_index]
  · simp [hi]

theorem rtcsrStored_reg {s : State} (hs : s.cfg.separate = true) (v : Word) (r : Reg) : (rtcsrStored v s).reg r =
    if r = .rtcsr then v else if r = .rtcnt then rtcntValue s else s.reg r := by
  have hcfg : (rtcsrStored v s).cfg = s.cfg := by rw [rtcsrStored_frame]
  rw [← cell_index, hcfg, rtcsrStored_cell hs]
  simp only [index_inj hs, cell_index]

/-- The timer armed with the new divisor, from the count stored. -/
theorem refArm_rtcsrStored {s : State} (hs : s.cfg.separate = true) (v : Word) : refArm (rtcsrStored v s) =
    (rtcsrStored v s).setRefresh (armedRefresh s (s.reg .rtcor) (rtcntValue s) v) := by
  have hrtcsr := rtcsrStored_reg hs v .rtcsr
  have hrtcnt := rtcsrStored_reg hs v .rtcnt
  have hrtcor := rtcsrStored_reg hs v .rtcor
  simp only [reduceCtorEq, if_true, if_false] at hrtcsr hrtcnt hrtcor
  rw [refArm_eq, hrtcsr, hrtcnt, hrtcor, rtcsrStored_frame]
  rfl

/-- The handler of `RTCSR`: its two registers, the timer, and nothing else. -/
theorem rtcsrWritten_spec {s t : State} (hs : s.cfg.separate = true) {w : Width} {a d v : Word}
    (hv : v = (s.stored .rtcsr w a d).reg .rtcsr &&& 0xFF) (ht : t = rtcsrWritten s (s.stored .rtcsr w a d)) :
    t = { s with regs := t.regs, refresh := if field v 3 3 ≠ 0 then armedRefresh s (s.reg .rtcor) (rtcntValue s) v
                   else { s.refresh with deadline := none } } ∧
    ∀ i, t.cell i =
      if i = s.cfg.index .rtcsr then v else if i = s.cfg.index .rtcnt then rtcntValue s else s.cell i := by
  have hactive : refActive (rtcsrStored v s) = true ↔ field v 3 3 ≠ 0 := by
    rw [refActive_iff, rtcsrStored_reg hs, if_pos rfl]
  have heq : t = if field v 3 3 ≠ 0 then
      (rtcsrStored v s).setRefresh (armedRefresh s (s.reg .rtcor) (rtcntValue s) v)
      else refStop (rtcsrStored v s) := by
    rw [ht, rtcsrWritten, stored_masked, ← hv, ← refArm_rtcsrStored hs]
    exact if_congr hactive rfl rfl
  rw [heq]
  split_ifs
  · exact ⟨by rw [rtcsrStored_frame]; rfl, rtcsrStored_cell hs v⟩
  · exact ⟨by rw [rtcsrStored_frame]; rfl, rtcsrStored_cell hs v⟩

/-- Settles O43: the count is the one that `RTCNT` reads, live where the timer is active. -/
theorem refreshControlSnapshots : Obligations.RefreshControlSnapshots := by
  intro w a d s v cnt hwf hs hv hcnt
  have hexec : exec (.wrRtcsr w a d) s = .next (rtcsrWritten s (s.stored .rtcsr w a d)) :=
    exec_write_of_wellFormed (r := .rtcsr) rfl (by decide) hwf
  have hlive : cnt = rtcntValue s := by
    rw [hcnt, rtcntValue]
    simp only [refActive_iff]
    rfl
  rw [hlive]
  exact ⟨_, hexec, rtcsrWritten_spec hs hv rfl⟩

/-- Settles O44: `RTCNT` arms from the word stored; `RTCOR` stores the live count first; `RFCR` is masked alone. -/
theorem refreshCountWrites : Obligations.RefreshCountWrites := by
  refine ⟨fun w a d s v hwf hs hv => ?count, fun w a d s v cnt hwf hs hv hcnt => ?compare, fun w a d s hwf => ?counter⟩
  case count =>
    have hexec : exec (.wrRtcnt w a d) s = .next (rtcntWritten (s.stored .rtcnt w a d)) :=
      exec_write_of_wellFormed (r := .rtcnt) rfl (by decide) hwf
    have hactive : refActive (s.setReg .rtcnt v) = refActive s := refActive_congr (by rw [setReg_reg hs, if_neg nofun])
    rw [hexec, rtcntWritten, stored_masked, ← hv]
    simp only [hactive, refActive_iff, refArm_setReg_rtcnt hs]
    split_ifs <;> rfl
  case compare =>
    have hexec : exec (.wrRtcor w a d) s = .next (rtcorWritten (s.stored .rtcor w a d)) :=
      exec_write_of_wellFormed (r := .rtcor) rfl (by decide) hwf
    have hrtcsr : (s.setReg .rtcor v).reg .rtcsr = s.reg .rtcsr := by rw [setReg_reg hs, if_neg nofun]
    have hlive : refLive (s.setReg .rtcor v) = cnt := by
      rw [hcnt, refLive, hrtcsr]
      rfl
    have harm := refArm_setReg_rtcnt (s := s.setReg .rtcor v) hs cnt
    rw [setReg_reg_same, hrtcsr] at harm
    rw [hexec, rtcorWritten, stored_masked, ← hv]
    simp only [refActive_congr hrtcsr, refActive_iff, hlive, harm]
    split_ifs <;> rfl
  case counter =>
    have hexec : exec (.wrRfcr w a d) s = .next (rfcrWritten (s.stored .rfcr w a d)) :=
      exec_write_of_wellFormed (r := .rfcr) rfl (by decide) hwf
    rw [hexec, rfcrWritten, stored_masked]

end Sys2Proof.Machine
end

section
/-! PROOF of `CalendarRefinesDecimalClock` (O39). A count in BCD is a count in decimal, one digit carrying into the
next; then each stage of the calendar against the decimal clock, from the month up to the seconds. -/
namespace Sys2Proof.Machine
open Sys2Proof

/-! ## Decimal digits (42_timers R265) -/

theorem field_toNat (v : Word) (k : Nat) : (field v k 4).toNat = v.toNat / 2 ^ k % 16 := by
  rw [field, BitVec.extractLsb'_toNat, Nat.shiftRight_eq_div_pow]

/-- Under the mask of a digit a word shows that digit alone. -/
theorem masked_eq_iff (v : Word) {k : Nat} (hk : k + 4 ≤ 32) (x : BitVec 4) :
    v &&& (0xF#32 <<< k) = x.setWidth 32 <<< k ↔ field v k 4 = x := by
  have hmask : ∀ j, (0xF#32).getLsbD j = decide (j < 4) := fun j => by
    refine (bit_ofNat_two_pow_sub_one 4 j).trans ?_
    rw [Bool.and_eq_right_iff_imp, decide_eq_true_eq, decide_eq_true_eq]
    omega
  constructor
  · intro h
    apply BitVec.eq_of_getLsbD_eq
    intro j hj
    have hbit := congrArg (fun u : Word => u.getLsbD (k + j)) h
    simp only [BitVec.getLsbD_and, BitVec.getLsbD_shiftLeft, hmask, BitVec.getLsbD_setWidth] at hbit
    have h1 : k + j < 32 := by omega
    have h2 : j < 32 := by omega
    simpa [field, hj, h1, h2] using hbit
  · rintro rfl
    apply BitVec.eq_of_getLsbD_eq
    intro j hj
    simp only [BitVec.getLsbD_and, BitVec.getLsbD_shiftLeft, hmask, BitVec.getLsbD_setWidth, field,
      BitVec.getLsbD_extractLsb']
    by_cases hkj : j < k
    · simp [hkj]
    · have h2 : j - k < 32 := by omega
      simp [hkj, hj, Nat.add_sub_cancel' (Nat.le_of_not_lt hkj), h2, Bool.and_comm]

/-- The digit at bit `k` carries into the next one where it has come to ten. -/
def carryDigit (k : Nat) (v : Word) : Word :=
  if v &&& (0xF#32 <<< k) = 0xA#32 <<< k then v + 6#32 <<< k else v

theorem toNat_carryDigit (v : Word) {k : Nat} (hk : k + 4 ≤ 32) : (carryDigit k v).toNat =
    if v.toNat / 2 ^ k % 16 = 10 then (v.toNat + 6 * 2 ^ k) % 2 ^ 32 else v.toNat := by
  have hten : v &&& (0xF#32 <<< k) = 0xA#32 <<< k ↔ v.toNat / 2 ^ k % 16 = 10 := by
    rw [← field_toNat]
    exact (masked_eq_iff v hk 10).trans BitVec.toNat_inj.symm
  have hcarry : (6#32 <<< k).toNat = 6 * 2 ^ k % 2 ^ 32 := by
    rw [BitVec.toNat_shiftLeft, Nat.shiftLeft_eq]
    rfl
  unfold carryDigit
  simp only [hten]
  split
  · rw [BitVec.toNat_add, hcarry, Nat.add_mod_mod]
  · rfl

theorem bcdByte_iff {v : Word} :
    bcdByte v = true ↔ v.toNat < 256 ∧ v.toNat % 16 < 10 ∧ v.toNat / 16 % 16 < 10 := by
  simp [bcdByte, field_toNat, and_assoc]

theorem bcdValue_eq (v : Word) : bcdValue v = 10 * (v.toNat / 16 % 16) + v.toNat % 16 := by
  simp [bcdValue, field_toNat]

theorem bcdValue_inj {v u : Word} (hv : bcdByte v = true) (hu : bcdByte u = true) :
    bcdValue v = bcdValue u ↔ v = u := by
  rw [bcdByte_iff] at hv hu
  rw [bcdValue_eq, bcdValue_eq, ← BitVec.toNat_inj]
  omega

theorem bcdInc_eq (v : Word) : bcdInc v = carryDigit 0 (v + 1) := rfl

theorem toNat_bcdInc {v : Word} (h : v.toNat < 256) :
    (bcdInc v).toNat = if (v.toNat + 1) % 16 = 10 then v.toNat + 7 else v.toNat + 1 := by
  have hnext : (v + 1).toNat = v.toNat + 1 := by
    rw [BitVec.toNat_add_of_lt] <;> simp
    omega
  rw [bcdInc_eq, toNat_carryDigit _ (by decide), hnext, pow_zero, Nat.div_one]
  split <;> omega

/-- Below 99 the next count has the next value. -/
theorem bcdInc_next {v : Word} (hv : bcdByte v = true) (hlt : bcdValue v < 99) :
    bcdByte (bcdInc v) = true ∧ bcdValue (bcdInc v) = bcdValue v + 1 := by
  rw [bcdByte_iff] at hv
  rw [bcdValue_eq] at hlt
  rw [bcdByte_iff, bcdValue_eq, bcdValue_eq, toNat_bcdInc hv.1]
  split <;> omega

/-- A count of two decimal digits, below a limit. -/
def BcdBelow (limit : Nat) (v : Word) : Prop := bcdByte v = true ∧ bcdValue v < limit

theorem bcdBelow_zero {limit : Nat} (h : 0 < limit) : BcdBelow limit 0 := ⟨rfl, h⟩

/-- A stage of the calendar counts below its limit: it comes to the limit, or to the next count. -/
theorem bcdInc_cases {limit v : Word} (hl : bcdByte limit = true) (h : BcdBelow (bcdValue limit) v) :
    (bcdInc v = limit ∧ bcdValue v + 1 = bcdValue limit) ∨
    (bcdInc v ≠ limit ∧ bcdValue v + 1 < bcdValue limit ∧ BcdBelow (bcdValue limit) (bcdInc v) ∧
      bcdValue (bcdInc v) = bcdValue v + 1) := by
  obtain ⟨hv, hlt⟩ := h
  have hle : bcdValue limit ≤ 99 := by
    rw [bcdByte_iff] at hl
    rw [bcdValue_eq]
    omega
  obtain ⟨hnext, hvalue⟩ := bcdInc_next hv (by omega)
  have heq := bcdValue_inj hnext hl
  by_cases hlimit : bcdInc v = limit
  · exact .inl ⟨hlimit, by rw [← hvalue, heq.2 hlimit]⟩
  · have hne := mt heq.1 hlimit
    exact .inr ⟨hlimit, by omega, ⟨hnext, by omega⟩, hvalue⟩

/-! ## The year -/

theorem digits_of_sum {n a b c d : Nat} (h : n = a + 16 * b + 256 * c + 4096 * d)
    (ha : a < 10) (hb : b < 10) (hc : c < 10) (hd : d ≤ 10) :
    n % 16 = a ∧ n / 16 % 16 = b ∧ n / 256 % 16 = c ∧ n / 4096 % 16 = d :=
  ⟨by omega, by omega, by omega, by omega⟩

theorem exists_digits_of_bcdYear {v : Word} (h : bcdYear v = true) : ∃ a b c d : Nat,
    v.toNat = a + 16 * b + 256 * c + 4096 * d ∧ a < 10 ∧ b < 10 ∧ c < 10 ∧ d < 10 := by
  simp only [bcdYear, field_toNat, Bool.and_eq_true, decide_eq_true_eq, Nat.reducePow, Nat.div_one] at h
  obtain ⟨⟨⟨⟨hv, ha⟩, hb⟩, hc⟩, hd⟩ := h
  exact ⟨_, _, _, _, by omega, ha, hb, hc, hd⟩

/-- A word of four decimal digits is a year, and its value is theirs. -/
theorem yearValue_of_digits {v : Word} {a b c d : Nat} (h : v.toNat = a + 16 * b + 256 * c + 4096 * d)
    (ha : a < 10) (hb : b < 10) (hc : c < 10) (hd : d < 10) :
    bcdYear v = true ∧ yearValue v = 1000 * d + 100 * c + 10 * b + a := by
  obtain ⟨h0, h4, h8, h12⟩ := digits_of_sum h ha hb hc hd.le
  have hsmall : v.toNat < 65536 := by omega
  simp [bcdYear, yearValue, field_toNat, h0, h4, h8, h12, hsmall, ha, hb, hc, hd]

/-- A digit `d` that is at most ten carries its ten, above the lower digits `low` and into the higher ones. -/
theorem toNat_carryDigit_digits {v : Word} {k low d high : Nat} (hk : k + 4 ≤ 32) (hlow : low < 2 ^ k) (hd : d ≤ 10)
    (hv : v.toNat = low + 2 ^ k * (d + 16 * high)) (hsmall : v.toNat + 6 * 2 ^ k < 2 ^ 32) : ∃ d' carry : Nat,
    (carryDigit k v).toNat = low + 2 ^ k * (d' + 16 * (high + carry)) ∧ d' < 10 ∧ d = d' + 10 * carry := by
  have hdigit : v.toNat / 2 ^ k % 16 = d := by
    rw [hv, Nat.add_mul_div_left _ _ (by omega), Nat.div_eq_of_lt hlow]
    omega
  rw [toNat_carryDigit v hk, hdigit, Nat.mod_eq_of_lt hsmall, hv]
  by_cases hten : d = 10
  · exact ⟨0, 1, by rw [if_pos hten, hten]; ring, by decide, hten⟩
  · exact ⟨d, 0, if_neg hten, by omega, rfl⟩

/-- The four digits of a year count up by one, the last one first; only the first one may come to ten. -/
theorem toNat_yearCarried {y : Word} {a b c d : Nat} (hy : y.toNat = a + 16 * b + 256 * c + 4096 * d)
    (ha : a < 10) (hb : b < 10) (hc : c < 10) (hd : d < 10) : ∃ a' b' c' d' : Nat,
    (carryDigit 8 (carryDigit 4 (carryDigit 0 (y + 1)))).toNat = a' + 16 * b' + 256 * c' + 4096 * d' ∧
    a' < 10 ∧ b' < 10 ∧ c' < 10 ∧ d' ≤ 10 ∧
      1000 * d' + 100 * c' + 10 * b' + a' = 1000 * d + 100 * c + 10 * b + a + 1 := by
  have hnext : (y + 1).toNat = 0 + 2 ^ 0 * (a + 1 + 16 * (b + 16 * c + 256 * d)) := by
    rw [BitVec.toNat_add]
    exact (Nat.mod_eq_of_lt (by simp only [BitVec.reduceToNat]; omega)).trans (by simp only [BitVec.reduceToNat]; omega)
  clear hy
  obtain ⟨a', r, step0, ha', hr⟩ := toNat_carryDigit_digits (by decide) (by decide) ha hnext (by omega)
  clear hnext
  generalize carryDigit 0 (y + 1) = y0 at step0 ⊢
  obtain ⟨b', r', step4, hb', hr'⟩ := toNat_carryDigit_digits (v := y0) (k := 4) (low := a')
    (d := b + r) (high := c + 16 * d) (by decide) (by omega) (by omega) (by omega) (by omega)
  clear step0
  generalize carryDigit 4 y0 = y4 at step4 ⊢
  obtain ⟨c', r'', step8, hc', hr''⟩ := toNat_carryDigit_digits (v := y4) (k := 8)
    (low := a' + 16 * b') (d := c + r') (high := d) (by decide) (by omega) (by omega) (by omega) (by omega)
  clear step4
  exact ⟨a', b', c', d + r'', by omega, ha', hb', hc', by omega, by omega⟩

theorem yearInc_eq (y : Word) : yearInc y =
    (if carryDigit 8 (carryDigit 4 (carryDigit 0 (y + 1))) &&& 0xF000 = 0xA000 then 0
      else carryDigit 8 (carryDigit 4 (carryDigit 0 (y + 1)))) &&& 0xFFFF := rfl

/-- The next year of four decimal digits, 0 after 9999. -/
theorem yearInc_next {y : Word} (h : bcdYear y = true) :
    bcdYear (yearInc y) = true ∧ yearValue (yearInc y) = (yearValue y + 1) % 10000 := by
  obtain ⟨a, b, c, d, hy, ha, hb, hc, hd⟩ := exists_digits_of_bcdYear h
  obtain ⟨a', b', c', d', hu, ha', hb', hc', hd', hsum⟩ := toNat_yearCarried hy ha hb hc hd
  rw [(yearValue_of_digits hy ha hb hc hd).2, yearInc_eq]
  generalize carryDigit 8 (carryDigit 4 (carryDigit 0 (y + 1))) = u at hu ⊢
  have hten : u &&& 0xF000 = 0xA000 ↔ d' = 10 := by
    rw [← (digits_of_sum hu ha' hb' hc' hd').2.2.2]
    exact (masked_eq_iff u (k := 12) (by decide) 10).trans (by rw [← BitVec.toNat_inj, field_toNat]; rfl)
  by_cases hwrap : d' = 10
  · rw [if_pos (hten.2 hwrap), ← hsum, show 1000 * d' + 100 * c' + 10 * b' + a' = 10000 by omega]
    exact ⟨rfl, rfl⟩
  · have hmask : (u &&& 0xFFFF).toNat = a' + 16 * b' + 256 * c' + 4096 * d' := by
      rw [BitVec.toNat_and]
      exact (Nat.and_two_pow_sub_one_eq_mod _ 16).trans ((Nat.mod_eq_of_lt (by omega)).trans hu)
    obtain ⟨hbcd, hvalue⟩ := yearValue_of_digits hmask ha' hb' hc' (by omega)
    rw [if_neg (mt hten.1 hwrap)]
    exact ⟨hbcd, by rw [hvalue, hsum, Nat.mod_eq_of_lt (by omega)]⟩

/-! ## Valid dates -/

/-- The weekday, the day, the month and the year of a valid date (93 U12). -/
structure ValidDay (cfg : Config) (c : Calendar) : Prop where
  yr : bcdYear c.yr = true
  wk : c.wk.toNat < 7
  mon : BcdBelow 13 c.mon
  mon_pos : 1 ≤ bcdValue c.mon
  day : bcdByte c.day = true
  day_pos : 1 ≤ bcdValue c.day
  day_le : bcdValue c.day ≤ c.date.monthLength cfg

/-- The time of the day is no part of it. -/
theorem ValidDay.congr {cfg : Config} {c c' : Calendar} (h : ValidDay cfg c) (hwk : c'.wk = c.wk)
    (hday : c'.day = c.day) (hmon : c'.mon = c.mon) (hyr : c'.yr = c.yr) : ValidDay cfg c' := by
  obtain ⟨sec, min, hr, wk, day, mon, yr⟩ := c'
  subst hwk hday hmon hyr
  exact ⟨h.yr, h.wk, h.mon, h.mon_pos, h.day, h.day_pos, h.day_le⟩

theorem valid_iff {cfg : Config} {c : Calendar} : c.Valid cfg ↔
    BcdBelow 60 c.sec ∧ BcdBelow 60 c.min ∧ BcdBelow 24 c.hr ∧ ValidDay cfg c := by
  unfold Calendar.Valid
  simp only [List.forall_mem_cons, Calendar.date]
  constructor
  · rintro ⟨⟨hsec, hmin, hhr, hday, hmon, -⟩, hyr, hsec60, hmin60, hhr24, hwk, hmon1, hmon12, hday1, hdayLe⟩
    exact ⟨⟨hsec, hsec60⟩, ⟨hmin, hmin60⟩, ⟨hhr, hhr24⟩,
      ⟨hyr, hwk, ⟨hmon, Nat.lt_succ_of_le hmon12⟩, hmon1, hday, hday1, hdayLe⟩⟩
  · rintro ⟨⟨hsec, hsec60⟩, ⟨hmin, hmin60⟩, ⟨hhr, hhr24⟩, h⟩
    exact ⟨⟨hsec, hmin, hhr, h.day, h.mon.1, fun _ h => absurd h List.not_mem_nil⟩, h.yr, hsec60, hmin60, hhr24,
      h.wk, h.mon_pos, Nat.le_of_lt_succ h.mon.2, h.day_pos, h.day_le⟩

section
variable {cfg : Config} (hlen : cfg.monthLen.length = 12) (hmonths : ∀ l ∈ cfg.monthLen, 1 ≤ l ∧ l ≤ 31)
include hlen hmonths

/-- A month has a day, and no more days than a count of two digits can take (93 U12). -/
theorem monthLength_bounds {d : Date} (hpos : 1 ≤ d.mon) (hlt : d.mon < 13) :
    1 ≤ d.monthLength cfg ∧ d.monthLength cfg ≤ 32 := by
  have hin : d.mon - 1 < cfg.monthLen.length := by omega
  obtain ⟨hone, hmax⟩ := hmonths _ (List.getElem_mem hin)
  unfold Date.monthLength
  rw [List.getD_eq_getElem _ _ hin]
  split <;> omega

end

theorem leapYear_iff {y : Nat} : leapYear y = true ↔ y % 4 = 0 ∧ y % 100 ≠ 0 ∨ y % 400 = 0 := by
  simp [leapYear]

/-- The model's length of a month is the decimal clock's. -/
theorem monthDays_eq {cfg : Config} {c : Calendar} (h : ValidDay cfg c) :
    monthDays cfg (bcdValue c.mon) (yearValue c.yr) = c.date.monthLength cfg := by
  have hmon : 1 ≤ bcdValue c.mon ∧ bcdValue c.mon ≤ 12 := ⟨h.mon_pos, Nat.le_of_lt_succ h.mon.2⟩
  unfold monthDays Date.monthLength
  rw [if_pos hmon]
  exact congrArg _ (if_congr (and_congr Iff.rfl leapYear_iff) rfl rfl)

/-! ## The decimal clock, stage by stage -/

/-- The next hour, with the minute and the second unchanged. -/
def Date.nextHour (cfg : Config) (d : Date) : Date :=
  if d.hr + 1 < 24 then { d with hr := d.hr + 1 } else { d.nextDay cfg with hr := 0 }

/-- The next day does not depend on the hour. -/
theorem nextDay_hr (cfg : Config) (d : Date) (x : Nat) :
    Date.nextDay cfg { d with hr := x } = { d.nextDay cfg with hr := x } := by
  unfold Date.nextDay Date.monthLength
  dsimp only
  split_ifs <;> rfl

/-- The next hour does not depend on the minute. -/
theorem nextHour_min (cfg : Config) (d : Date) (x : Nat) :
    Date.nextHour cfg { d with min := x } = { d.nextHour cfg with min := x } := by
  unfold Date.nextHour Date.nextDay Date.monthLength
  dsimp only
  split_ifs <;> rfl

/-- A minute that does not count up carries into the hour. -/
theorem nextMinute_eq (cfg : Config) (d : Date) : d.nextMinute cfg =
    if d.min + 1 < 60 then { d with min := d.min + 1 } else { d.nextHour cfg with min := 0 } := by
  unfold Date.nextMinute Date.nextHour
  split_ifs <;> rfl

/-- The next minute does not depend on the second. -/
theorem nextMinute_sec (cfg : Config) (d : Date) (x : Nat) :
    Date.nextMinute cfg { d with sec := x } = { d.nextMinute cfg with sec := x } := by
  unfold Date.nextMinute Date.nextDay Date.monthLength
  dsimp only
  split_ifs <;> rfl

/-! ## The stages of the calendar -/

section
variable {cfg : Config} (hlen : cfg.monthLen.length = 12) (hmonths : ∀ l ∈ cfg.monthLen, 1 ≤ l ∧ l ≤ 31)
include hlen hmonths

/-- The month stage and the year stage, on a day that every month has. -/
theorem calMonth_valid {c : Calendar} (h : ValidDay cfg c) (hday : c.day = 1) :
    ValidDay cfg (calMonth c) ∧ (calMonth c).date =
      if c.date.mon < 12 then { c.date with mon := c.date.mon + 1 }
      else { c.date with mon := 1, yr := (c.date.yr + 1) % 10000 } := by
  have hone : bcdValue 1 = 1 := rfl
  have hfirst : BcdBelow 13 1 := ⟨rfl, by decide⟩
  have hday1 : bcdValue c.day = 1 := hday ▸ hone
  unfold calMonth
  rcases bcdInc_cases (limit := 0x13) rfl h.mon with ⟨hlimit, hvalue⟩ | ⟨hlimit, hlt, hnext, hvalue⟩
  · obtain ⟨hyr, hyrValue⟩ := yearInc_next h.yr
    have hlast : ¬c.date.mon < 12 := by simp only [Calendar.date]; change _ = 13 at hvalue; omega
    rw [if_pos hlimit, if_neg hlast]
    refine ⟨⟨hyr, h.wk, hfirst, hone.ge, h.day, h.day_pos, ?_⟩, ?_⟩
    · exact hday1.le.trans (monthLength_bounds hlen hmonths hone.ge hfirst.2).1
    · simp only [Calendar.date, hyrValue]
      rfl
  · have hnotLast : c.date.mon < 12 := Nat.lt_of_succ_lt_succ hlt
    rw [if_neg hlimit, if_pos hnotLast]
    have hpos : 1 ≤ bcdValue (bcdInc c.mon) := by omega
    refine ⟨⟨h.yr, h.wk, hnext, hpos, h.day, h.day_pos, ?_⟩, ?_⟩
    · exact hday1.le.trans (monthLength_bounds hlen hmonths hpos hnext.2).1
    · simp only [Calendar.date, hvalue]

/-- The weekday stage and the day stage. -/
theorem calDay_valid {c : Calendar} (h : ValidDay cfg c) :
    ValidDay cfg (calDay cfg c) ∧ (calDay cfg c).date = c.date.nextDay cfg := by
  have hwk : (if c.wk + 1 = 7 then 0 else c.wk + 1 : Word).toNat = (c.wk.toNat + 1) % 7 := by
    have hwk7 := h.wk
    have hnext : (c.wk + 1).toNat = c.wk.toNat + 1 := by
      rw [BitVec.toNat_add]
      exact Nat.mod_eq_of_lt (by simp only [BitVec.reduceToNat]; omega)
    have hseven : c.wk + 1 = 7 ↔ c.wk.toNat + 1 = 7 := by
      rw [← BitVec.toNat_inj, hnext]
      rfl
    rw [apply_ite BitVec.toNat, hnext]
    simp only [hseven]
    split
    · rename_i hlast
      rw [hlast]
      rfl
    · omega
  have hwk7 : (if c.wk + 1 = 7 then 0 else c.wk + 1 : Word).toNat < 7 := hwk ▸ Nat.mod_lt _ (by decide)
  have hmax := (monthLength_bounds hlen hmonths (d := c.date) h.mon_pos h.mon.2).2
  obtain ⟨hday, hdayValue⟩ := bcdInc_next h.day (by have := h.day_le; omega)
  have hdate : ∀ day : Word,
      ({ c with wk := if c.wk + 1 = 7 then 0 else c.wk + 1, day := day } : Calendar).date =
        { c.date with wk := (c.wk.toNat + 1) % 7, day := bcdValue day } := fun day => by
    simp only [Calendar.date, hwk]
  unfold calDay Date.nextDay
  generalize (if c.wk + 1 = 7 then 0 else c.wk + 1 : Word) = wk at hwk7 hdate ⊢
  rw [monthDays_eq h, hdayValue]
  by_cases hlast : c.date.monthLength cfg < bcdValue c.day + 1
  · have hone : bcdByte 1 = true ∧ bcdValue 1 = 1 := ⟨rfl, rfl⟩
    have hfirst : ValidDay cfg { c with wk := wk, day := 1 } :=
      ⟨h.yr, hwk7, h.mon, h.mon_pos, hone.1, hone.2.ge,
        hone.2.le.trans (monthLength_bounds hlen hmonths (d := { c with wk := wk, day := 1 : Calendar }.date) h.mon_pos
          h.mon.2).1⟩
    obtain ⟨hvalid, hmonth⟩ := calMonth_valid hlen hmonths hfirst rfl
    rw [if_pos hlast, if_neg (by exact Nat.not_le.2 hlast)]
    refine ⟨hvalid, hmonth.trans ?_⟩
    rw [hdate 1]
    rfl
  · have hle := Nat.le_of_not_lt hlast
    rw [if_neg hlast, if_pos (show c.date.day + 1 ≤ _ from hle)]
    refine ⟨⟨h.yr, hwk7, h.mon, h.mon_pos, hday, hdayValue ▸ Nat.le_add_left .., hdayValue ▸ hle⟩, ?_⟩
    rw [hdate (bcdInc c.day), hdayValue]
    rfl

omit hlen hmonths in
/-- The month, the day and the weekday leave the time of the day. -/
theorem calDay_time (c : Calendar) :
    (calDay cfg c).sec = c.sec ∧ (calDay cfg c).min = c.min ∧ (calDay cfg c).hr = c.hr := by
  have hmonth : ∀ u : Calendar,
      (calMonth u).sec = u.sec ∧ (calMonth u).min = u.min ∧ (calMonth u).hr = u.hr := fun u => by
    unfold calMonth
    split <;> exact ⟨rfl, rfl, rfl⟩
  unfold calDay
  dsimp only
  split
  · exact hmonth _
  · exact ⟨rfl, rfl, rfl⟩

/-- The hour stage and those it carries into. -/
theorem calHour_valid {c : Calendar} (h : c.Valid cfg) :
    (calHour cfg c).Valid cfg ∧ (calHour cfg c).date = c.date.nextHour cfg := by
  obtain ⟨hsec, hmin, hhr, hday⟩ := valid_iff.1 h
  unfold calHour Date.nextHour
  rcases bcdInc_cases (limit := 0x24) rfl hhr with ⟨hlimit, hvalue⟩ | ⟨hlimit, hlt, hnext, hvalue⟩
  · have hmidnight : ValidDay cfg { c with hr := 0 } := hday.congr rfl rfl rfl rfl
    obtain ⟨hvalid, hdate⟩ := calDay_valid hlen hmonths hmidnight
    obtain ⟨hsec', hmin', hhr'⟩ := calDay_time (cfg := cfg) { c with hr := 0 }
    rw [if_pos hlimit, if_neg (by exact hvalue.not_lt)]
    rw [valid_iff, hsec', hmin', hhr']
    exact ⟨⟨hsec, hmin, bcdBelow_zero (by decide), hvalid⟩, hdate.trans (nextDay_hr cfg c.date (bcdValue 0))⟩
  · rw [if_neg hlimit, if_pos (by exact hlt)]
    refine ⟨valid_iff.2 ⟨hsec, hmin, hnext, hday.congr rfl rfl rfl rfl⟩, ?_⟩
    simp only [Calendar.date, hvalue]

/-- The minute stage and those it carries into. -/
theorem calMinute_valid {c : Calendar} (h : c.Valid cfg) :
    (calMinute cfg c).Valid cfg ∧ (calMinute cfg c).date = c.date.nextMinute cfg := by
  obtain ⟨hsec, hmin, hhr, hday⟩ := valid_iff.1 h
  rw [nextMinute_eq]
  unfold calMinute
  rcases bcdInc_cases (limit := 0x60) rfl hmin with ⟨hlimit, hvalue⟩ | ⟨hlimit, hlt, hnext, hvalue⟩
  · have hhour : ({ c with min := 0 } : Calendar).Valid cfg :=
      valid_iff.2 ⟨hsec, bcdBelow_zero (by decide), hhr, hday.congr rfl rfl rfl rfl⟩
    obtain ⟨hvalid, hdate⟩ := calHour_valid hlen hmonths hhour
    rw [if_pos hlimit, if_neg (by exact hvalue.not_lt)]
    exact ⟨hvalid, hdate.trans (nextHour_min cfg c.date (bcdValue 0))⟩
  · rw [if_neg hlimit, if_pos (by exact hlt)]
    refine ⟨valid_iff.2 ⟨hsec, hnext, hhr, hday.congr rfl rfl rfl rfl⟩, ?_⟩
    simp only [Calendar.date, hvalue]

/-- The second stage and those it carries into. -/
theorem calSecond_valid {c : Calendar} (h : c.Valid cfg) :
    (calSecond cfg c).Valid cfg ∧ (calSecond cfg c).date = c.date.nextSecond cfg := by
  obtain ⟨hsec, hmin, hhr, hday⟩ := valid_iff.1 h
  unfold calSecond Date.nextSecond
  rcases bcdInc_cases (limit := 0x60) rfl hsec with ⟨hlimit, hvalue⟩ | ⟨hlimit, hlt, hnext, hvalue⟩
  · have hminute : ({ c with sec := 0 } : Calendar).Valid cfg :=
      valid_iff.2 ⟨bcdBelow_zero (by decide), hmin, hhr, hday.congr rfl rfl rfl rfl⟩
    obtain ⟨hvalid, hdate⟩ := calMinute_valid hlen hmonths hminute
    rw [if_pos hlimit, if_neg (by exact hvalue.not_lt)]
    exact ⟨hvalid, hdate.trans (nextMinute_sec cfg c.date (bcdValue 0))⟩
  · rw [if_neg hlimit, if_pos (by exact hlt)]
    refine ⟨valid_iff.2 ⟨hnext, hmin, hhr, hday.congr rfl rfl rfl rfl⟩, ?_⟩
    simp only [Calendar.date, hvalue]

end

/-- Settles O39: the second stage and the minute stage, which is the other entry. -/
theorem calendarRefinesDecimalClock : Obligations.CalendarRefinesDecimalClock := by
  intro cfg c hlen hmonths h
  obtain ⟨hsecond, hsecondDate⟩ := calSecond_valid hlen hmonths h
  obtain ⟨hminute, hminuteDate⟩ := calMinute_valid hlen hmonths h
  exact ⟨hsecond, hsecondDate, hminute, hminuteDate⟩

end Sys2Proof.Machine
end

section
/-! PROOFS of `RtcTickCarries` (O38) and `ClockControlActs` (O45): the real-time clock. -/
namespace Sys2Proof.Machine
open Sys2Proof

/-! ## The tick (42_timers R266) -/

theorem putCf_true (v : Word) : putCf v true = v ||| 0x80 := rfl

/-- A register that is none of the calendar leaves it. -/
theorem setReg_calendar_of_other {s : State} (hs : s.cfg.separate = true) {r : Reg} (hr : r ∉ calendarRegs) (v : Word) :
    (s.setReg r v).calendar = s.calendar := by
  refine calendar_congr fun k hk => ?_
  rw [setReg_reg hs, if_neg]
  rintro rfl
  exact hr hk

/-- The clock's tick but for its carry: the deadline and the 7-bit counter. -/
def rtcTicked (s : State) : State :=
  (s.setRtc (s.rtcDeadline.map (· + s.cfg.cycPerRtcTick))).setReg .r64cnt ((s.reg .r64cnt + 1) &&& 0x7F)

theorem rtcTicked_reg {s : State} (hs : s.cfg.separate = true) {r : Reg} (hr : r ≠ .r64cnt) :
    (rtcTicked s).reg r = s.reg r := by
  have hsep : (s.setRtc (s.rtcDeadline.map (· + s.cfg.cycPerRtcTick))).cfg.separate = true := hs
  rw [rtcTicked, setReg_reg hsep, if_neg hr, setRtc_reg]

theorem rtcExpire_eq {s : State} (hs : s.cfg.separate = true) : rtcExpire s =
    if (s.reg .r64cnt + 1) &&& 0x7F = 64 then
      incSecond ((rtcTicked s).setReg .rcr1 (s.reg .rcr1 ||| 0x80))
    else rtcTicked s := by
  unfold rtcExpire
  simp only [setReg_reg_same, setRtc_reg]
  rw [← putCf_true, ← rtcTicked_reg hs (r := .rcr1) nofun]
  rfl

/-- Settles O38: the tick, and on the one that carries the flag and `CAL_INC`. -/
theorem rtcTickCarries : Obligations.RtcTickCarries := by
  rintro s deadline carry hs hdeadline hdue hcarry
  have hexec : exec (.fire .rtc) s = .next (rtcExpire s) := fire_of_due (t := .rtc) hdeadline hdue
  have htimer : (rtcExpire s).rtcDeadline = some (deadline + s.cfg.cycPerRtcTick) := by
    rw [rtcExpire_rtcDeadline, hdeadline]
    rfl
  have hcells : ∀ i, i ∉ (Reg.r64cnt :: .rcr1 :: calendarRegs).map s.cfg.index → (rtcExpire s).cell i = s.cell i :=
    (within_expire .rtc s).cells
  have hsep : (rtcTicked s).cfg.separate = true := hs
  have hcalendar : (rtcTicked s).calendar = s.calendar :=
    setReg_calendar_of_other (s := s.setRtc (s.rtcDeadline.map (· + s.cfg.cycPerRtcTick))) hs (by decide) _
  have hticked : (rtcTicked s).reg .r64cnt = (s.reg .r64cnt + 1) &&& 0x7F := setReg_reg_same ..
  refine ⟨_, hexec, ?_⟩
  rw [← htimer]
  have heq := rtcExpire_eq hs
  generalize rtcExpire s = t at htimer hcells heq ⊢
  by_cases hturn : (s.reg .r64cnt + 1) &&& 0x7F = 64
  · rw [if_pos hturn] at heq
    rw [hcarry, decide_eq_true hturn, if_pos rfl, if_pos rfl]
    obtain ⟨u, hu⟩ : ∃ u, u = (rtcTicked s).setReg .rcr1 (s.reg .rcr1 ||| 0x80) := ⟨_, rfl⟩
    have husep : u.cfg.separate = true := hu ▸ hs
    have honly : CalendarOnly u t := heq ▸ hu ▸ incSecond_only u
    refine ⟨?_, ?_, ?_, ?_, hcells⟩
    · rw [honly.1, hu]
      rfl
    · rw [honly.reg husep (by decide), hu, setReg_reg hsep, if_neg nofun, hticked]
    · rw [honly.reg husep (by decide), hu, setReg_reg_same]
    · rw [heq, ← hu, incSecond_calendar husep, hu, setReg_calendar_of_other hsep (by decide), hcalendar]
      rfl
  · rw [if_neg hturn] at heq
    rw [hcarry, decide_eq_false hturn, heq]
    exact ⟨rfl, hticked, rtcTicked_reg hs nofun, hcalendar, heq ▸ hcells⟩

/-! ## The writes of `RCR2` (42_timers R265) -/

theorem bit_and (v m : Word) (j : Nat) : bit (v &&& m) j = (bit v j && bit m j) := BitVec.getLsbD_and

/-- The two write-1 actions on a word `v` of eight bits: the registers that they leave. -/
theorem rcr2Actions_spec {s t : State} (hs : s.cfg.separate = true) {v : Word} (hv : v = v &&& 0xFF)
    (ht : t = rcr2AdjAction (rcr2ResetAction (s.setReg .rcr2 v))) :
    t = { s with regs := t.regs } ∧ t.reg .rcr2 = v &&& 0xF9 ∧
    t.reg .r64cnt = (if bit v 1 || bit v 2 then 0 else s.reg .r64cnt) ∧
    t.calendar = (if bit v 2 then
        { (if 30 ≤ bcdValue (s.reg .rseccnt) then calMinute s.cfg s.calendar else s.calendar) with sec := 0 }
      else s.calendar) ∧
    ∀ i, i ∉ (Reg.rcr2 :: .r64cnt :: calendarRegs).map s.cfg.index → t.cell i = s.cell i := by
  obtain ⟨hframe1, hrcr1, hr64cnt1, hcell1⟩ := rcr2ResetAction_spec (s := s.setReg .rcr2 v) hs
  generalize rcr2ResetAction (s.setReg .rcr2 v) = u at hframe1 hrcr1 hr64cnt1 hcell1 ht
  have hcfg : u.cfg = s.cfg := by rw [hframe1]; rfl
  obtain ⟨hframe2, hrcr2, hr64cnt2, hcalendar2, hcell2⟩ := rcr2AdjAction_spec (s := u) (hcfg ▸ hs)
  rw [← ht] at hframe2 hrcr2 hr64cnt2 hcalendar2 hcell2
  have hother : ∀ i, i ∉ [s.cfg.index .rcr2, s.cfg.index .r64cnt] → u.cell i = s.cell i := fun i hi => by
    have hne : i ≠ s.cfg.index .rcr2 := by
      rintro rfl
      exact hi List.mem_cons_self
    rw [hcell1 i hi, setReg_cell, if_neg hne]
  have hreg : ∀ r ∈ calendarRegs, u.reg r = s.reg r := fun r hr => by
    have hne : r ≠ .rcr2 ∧ r ≠ .r64cnt := by revert r; decide
    rw [← cell_index u, hcfg, hother _ (by simp [index_inj hs, hne]), cell_index]
  have hr64cnt : (s.setReg .rcr2 v).reg .r64cnt = s.reg .r64cnt := by rw [setReg_reg hs, if_neg nofun]
  rw [setReg_reg_same] at hrcr1 hr64cnt1
  rw [hr64cnt] at hr64cnt1
  have hadj : bit (v &&& ~~~2) 2 = bit v 2 := by
    rw [bit_and]
    exact Bool.and_true _
  rw [hrcr1, hadj] at hr64cnt2 hcalendar2
  refine ⟨?_, ?_, ?_, ?_, fun i hi => ?_⟩
  · rw [hframe2, hframe1]
    rfl
  · rw [hrcr2, hrcr1, hv, BitVec.and_assoc, BitVec.and_assoc, BitVec.and_assoc]
    rfl
  · rw [hr64cnt2, hr64cnt1]
    cases bit v 1 <;> cases bit v 2 <;> rfl
  · rw [hcalendar2, hreg .rseccnt (by decide), calendar_congr hreg, hcfg]
  · rw [hcfg] at hcell2
    simp only [List.map_cons, List.mem_cons, not_or] at hi
    rw [hcell2 i (by simpa using hi), hother i (by simp [hi])]

/-- Start and stop are the deadline alone. -/
theorem rcr2StartStop_eq (old : Word) (s : State) : rcr2StartStop old s =
    s.setRtc (if bit (s.reg .rcr2) 3 = false then none
      else if bit old 3 then s.rtcDeadline else some (s.now + s.cfg.cycPerRtcTick)) := by
  unfold rcr2StartStop rcr2Start
  cases bit (s.reg .rcr2) 3 with
  | false => rfl
  | true => cases bit old 3 <;> rfl

/-- Settles O45: the two write-1 actions, which touch registers alone, then start and stop. -/
theorem clockControlActs : Obligations.ClockControlActs := by
  rintro w a d s v adj hwf hs hv rfl
  have hexec : exec (.wrRcr2 w a d) s = .next (rcr2Written s (s.stored .rcr2 w a d)) :=
    exec_write_of_wellFormed (r := .rcr2) rfl (by decide) hwf
  have hmasked : v = v &&& 0xFF := by
    rw [hv, BitVec.and_assoc]
    rfl
  rw [rcr2Written, stored_masked, ← hv] at hexec
  obtain ⟨hframe, hrcr2, hr64cnt, hcalendar, hcell⟩ := rcr2Actions_spec hs hmasked rfl
  generalize rcr2AdjAction (rcr2ResetAction (s.setReg .rcr2 v)) = u at hexec hframe hrcr2 hr64cnt hcalendar hcell
  have hstart : bit (u.reg .rcr2) 3 = bit v 3 := by
    rw [hrcr2, bit_and]
    exact Bool.and_true _
  have hdeadline : (if bit v 3 = false then none else if bit (s.reg .rcr2) 3 then u.rtcDeadline
      else some (u.now + u.cfg.cycPerRtcTick)) = if bit v 3 = false then none
      else if bit (s.reg .rcr2) 3 then s.rtcDeadline else some (s.now + s.cfg.cycPerRtcTick) := by
    rw [hframe]
  rw [rcr2StartStop_eq, hstart, hdeadline] at hexec
  refine ⟨_, hexec, ?_, rfl, hrcr2, hr64cnt, hcalendar, hcell⟩
  rw [hframe]
  rfl

end Sys2Proof.Machine
end

section
/-! PROOF of `LiveReadsAnswer` (O49): the reads that answer a live count or the pins. -/
namespace Sys2Proof.Machine
open Sys2Proof

/-- An enabled port of `n` pins reads, bit by bit, the cell where the pin is an output and the pin where it is an input
(43_regfile R306, R307). -/
theorem bit_portValue {n : Nat} (hn : n ≤ 32) (pins dir : BitVec n) (v : Word) (j : Nat) :
    bit ((pins &&& ~~~dir).setWidth 32 ||| (v &&& dir.setWidth 32)) j =
      (decide (j < n) && (if dir.getLsbD j then bit v j else pins.getLsbD j)) := by
  unfold bit
  simp only [BitVec.getLsbD_or, BitVec.getLsbD_and, BitVec.getLsbD_setWidth, BitVec.getLsbD_not]
  by_cases hj : j < n
  · have hj32 : j < 32 := by omega
    cases dir.getLsbD j <;> simp [hj, hj32]
  · have hdir : dir.getLsbD j = false := BitVec.getLsbD_of_ge dir j (by omega)
    simp [hj, hdir]

/-- Settles O49: each read answers its register's value; the counts as they are defined, the ports bit by bit. -/
theorem liveReadsAnswer : Obligations.LiveReadsAnswer := by
  refine ⟨fun p hp w a s hwf => ?count, fun w a s hwf => ?refresh, fun w a s hwf => ?portA, fun w a s hwf => ?portB⟩
  case count =>
    exact exec_read_of_wellFormed (busAccess_countRead hp w a) hwf
  case refresh =>
    have hvalue : rtcntValue s = if field (s.reg .rtcsr) 3 3 ≠ 0 then refLive s else s.reg .rtcnt :=
      if_congr refActive_iff rfl rfl
    have hexec : exec (.rdRtcnt w a) s = .next (s.emit (.readData (laneRead s.cfg.endian w a (rtcntValue s)))) :=
      exec_read_of_wellFormed (r := .rtcnt) rfl hwf
    rw [hvalue] at hexec
    exact hexec
  case portA =>
    refine ⟨pdtraValue s, exec_read_of_wellFormed (r := .pdtra) rfl hwf, fun j => ?_⟩
    unfold pdtraValue bcr2Porten
    cases bit (s.reg .bcr2) 0 with
    | false => rfl
    | true => exact bit_portValue (by decide) ..
  case portB =>
    refine ⟨pdtrbValue s, exec_read_of_wellFormed (r := .pdtrb) rfl hwf, fun j => ?_⟩
    unfold pdtrbValue bcr2Porten
    cases bit (s.reg .bcr2) 0 with
    | false => rfl
    | true => exact bit_portValue (by decide) ..

end Sys2Proof.Machine
end

section
/-! PROOF of `PlainAndHardWiredRegisters` (O48): each row of 43_regfile R295 is one of the shared bus accesses. -/
namespace Sys2Proof.Machine
open Sys2Proof

theorem laneRead_zero (e : Endian) (w : Width) (a : Word) : laneRead e w a 0 = 0 := by
  simp [laneRead]

/-- Settles O48: a well-formed operation of a row is not refused, so its access stores, answers or is ignored. -/
theorem plainAndHardWiredRegisters : Obligations.PlainAndHardWiredRegisters := by
  refine ⟨fun p hp w a d s hwf => ?plainWrite, fun p hp w a s hwf => ?plainRead, fun w a d s hwf => ?unnamedWrite,
    fun w a s hwf => ?unnamedRead, fun op hop w a d s hwf => ?ignored, fun op hop w a s hwf => ?zero,
    fun w a s hwf => ?version⟩
  case plainWrite =>
    rw [exec_plainWrite hp, busWritePlain_of_none (plainWrite_none hp hwf), storeMasked_index]
  case plainRead =>
    rw [exec_plainRead hp]
    exact busRead_of_none (plainRead_none hp hwf) _
  case unnamedWrite =>
    exact busWritePure_of_none (busRefusal_of_wellFormed rfl hwf) (regIndex s.cfg a) d
      (fun _ new => new.emitDiag (.unknownRegisterWrite a))
  case unnamedRead =>
    exact busRead_of_none (busRefusal_of_wellFormed rfl hwf) (fun s => s.cell (regIndex s.cfg a))
  case ignored =>
    rw [exec_ignoredWrite hop, busWriteIgnored_of_none (ignoredWrite_none hop hwf)]
  case zero =>
    rw [exec_zeroRead hop, busRead_of_none (zeroRead_none hop hwf), laneRead_zero]
    rfl
  case version =>
    exact exec_read_of_wellFormed (r := .pvr) rfl hwf

end Sys2Proof.Machine
end

section
/-! PROOF of `BusAccessRefusedOrReadOnly` (O51): the refusal of an access comes before its meaning, and a read only
emits. -/
namespace Sys2Proof.Machine
open Sys2Proof

/-- A refused access has no other outcome, whatever it accesses. -/
theorem busMeaning_refused {b : BusAccess} {s : State} {e : Refusal} (h : busRefusal s.cfg b.width b.addr = some e) :
    busMeaning b s = .refused e := by
  unfold busMeaning
  split
  · exact busRead_refused h _
  · exact busRead_refused h _
  · exact busWrite_refused h ..
  · exact busWriteIgnored_refused h
  · exact busWriteIgnored_refused h
  · exact busWriteIgnored_refused h
  · exact busWrite_refused h ..

/-- A read that is not refused answers a value, and does nothing else. -/
theorem busMeaning_read {b : BusAccess} {s : State} (hread : b.write = false)
    (h : busRefusal s.cfg b.width b.addr = none) : ∃ v : Word, busMeaning b s = .next (s.emit (.readData v)) := by
  obtain ⟨write, target, w, a, d⟩ := b
  obtain rfl : write = false := hread
  cases target with
  | none => exact ⟨_, busRead_of_none h (fun s => s.cell (regIndex s.cfg a))⟩
  | some r => exact ⟨_, busRead_of_none h (readValue r)⟩

/-- Settles O51: every bus operation does what its access says, and the access is tested first. -/
theorem busAccessRefusedOrReadOnly : Obligations.BusAccessRefusedOrReadOnly := by
  intro i b s hb
  rw [exec_busAccess hb]
  exact ⟨fun hout => busMeaning_refused (busRefusal_outside hout),
    fun hin hlane => busMeaning_refused (busRefusal_lane hin hlane),
    fun hread hin hlane => busMeaning_read hread (busRefusal_none hin hlane)⟩

end Sys2Proof.Machine
end

section
/-! PROOF of `GpioWritesDrivePins` (O50). The handler of a control register sets the directions and pull-ups of its
pins; every handler of the GPIO glue then drives the pins. -/
namespace Sys2Proof.Machine
open Sys2Proof

/-- The outputs after the first group's pins are driven (43_regfile R302, R303). -/
theorem gpioPush16_eq (s : State) : gpioPush16 s = { s with
    outputs := if bit (s.reg .bcr2) 0 then
      s.outputs ++ [.gpioOut16 ((s.reg .pdtra).extractLsb' 0 16 &&& s.gpio.dir16) (s.reg .pctra)]
      else s.outputs } := by
  rw [gpioPush16, bcr2Porten, BitVec.setWidth_eq_extractLsb' (by decide)]
  split <;> rfl

/-- The outputs after the second group's pins are driven (43_regfile R304, R305). -/
theorem gpioPush4_eq (s : State) : gpioPush4 s = { s with
    outputs := if bit (s.reg .bcr2) 0 then
      s.outputs ++ [.gpioOut4 ((s.reg .pdtrb).extractLsb' 0 4 &&& s.gpio.dir4) (s.reg .pctrb)]
      else s.outputs } := by
  rw [gpioPush4, bcr2Porten, BitVec.setWidth_eq_extractLsb' (by decide)]
  split <;> rfl

/-- Settles O50: the control registers set their pins' directions first; every handler then drives the pins. -/
theorem gpioWritesDrivePins : Obligations.GpioWritesDrivePins := by
  refine ⟨?controlA, ?controlB, ?dataA, ?dataB⟩
  case controlA =>
    rintro w a d s s1 hwf hs rfl
    have hexec : exec (.wrPctra w a d) s = .next (pctraWritten (s.stored .pctra w a d)) :=
      exec_write_of_wellFormed (r := .pctra) rfl (by decide) hwf
    rw [pctraWritten, gpioPush16_eq] at hexec
    simp only [setGpio_reg, stored_reg hs .pctra .bcr2 nofun, stored_reg hs .pctra .pdtra nofun] at hexec
    exact ⟨_, hexec, rfl, fun k => ⟨gpioDir_getLsbD 16 _ k.isLt, gpioPup_getLsbD 16 _ k.isLt⟩, rfl⟩
  case controlB =>
    rintro w a d s s1 hwf hs rfl
    have hexec : exec (.wrPctrb w a d) s = .next (pctrbWritten (s.stored .pctrb w a d)) :=
      exec_write_of_wellFormed (r := .pctrb) rfl (by decide) hwf
    rw [pctrbWritten, gpioPush4_eq] at hexec
    simp only [setGpio_reg, stored_reg hs .pctrb .bcr2 nofun, stored_reg hs .pctrb .pdtrb nofun] at hexec
    exact ⟨_, hexec, rfl, fun k => ⟨gpioDir_getLsbD 4 _ k.isLt, gpioPup_getLsbD 4 _ k.isLt⟩, rfl⟩
  case dataA =>
    rintro w a d s s1 hwf hs rfl
    have hexec : exec (.wrPdtra w a d) s = .next (gpioPush16 (s.stored .pdtra w a d)) :=
      exec_write_of_wellFormed (r := .pdtra) rfl (by decide) hwf
    rw [gpioPush16_eq, stored_reg hs .pdtra .bcr2 nofun, stored_reg hs .pdtra .pctra nofun] at hexec
    exact hexec
  case dataB =>
    rintro w a d s s1 hwf hs rfl
    have hexec : exec (.wrPdtrb w a d) s = .next (gpioPush4 (s.stored .pdtrb w a d)) :=
      exec_write_of_wellFormed (r := .pdtrb) rfl (by decide) hwf
    rw [gpioPush4_eq, stored_reg hs .pdtrb .bcr2 nofun, stored_reg hs .pdtrb .pctrb nofun] at hexec
    exact hexec

end Sys2Proof.Machine
end

section
/-! PROOFS of `ResetInstalls` (O6), `ResetStateMeetsInvariant` (O7) and `ResetEstablishesInvariants` (O8): what the
block holds after `RESET` is said part by part; with the spec's reset values it is coherent. -/
namespace Sys2Proof.Machine
open Sys2Proof

theorem exec_reset (s : State) : exec .reset s = .next (resetBlock s) := rfl

/-! ## The register file (10_state R29, R40) -/

/-- A cell of no named register holds 0. -/
theorem resetBlock_cell_of_unnamed (s : State) {i : Nat} (hi : ∀ r : Reg, i ≠ s.cfg.index r) :
    (resetBlock s).cell i = 0 := by
  change sparseGet 0 (regsReset s.cfg) i = 0
  rw [regsReset_get, List.find?_eq_none.2 fun e _ => by simpa using (hi e.1).symm]

/-- The named registers that the spec's table does not reset to 0. -/
theorem resetValue_of_default {cfg : Config} (h : cfg.reset = defaultReset) (r : Reg) : cfg.resetValue r =
    if r = .rcr2 then 0x09
    else if ∃ n : TmuChan, r = .tcor n ∨ r = .tcnt n then 0xFFFFFFFF
    else 0 := by
  have htable : ∀ r ∈ Reg.all, defaultConfig.resetValue r =
      if r = .rcr2 then 0x09
      else if ∃ n : TmuChan, r = .tcor n ∨ r = .tcnt n then 0xFFFFFFFF
      else 0 := by decide
  rw [resetValue_congr (c' := defaultConfig) h]
  exact htable r (mem_allRegs r)

/-! ## The interrupt controller (10_state R42 to R46) -/

theorem resetBlock_prio (s : State) (x : Source) :
    (resetBlock s).intc.prio[x] = (s.cfg.srcEntry x).resetPrio s.cfg.reset.peripheralSub :=
  intcReset_prio s.cfg x

theorem defaultReset_requesting (x : Source) : defaultReset.requesting[x] = false := Vector.getElem_replicate x.isLt

/-- The sources of level 2 have the sub-priorities 0 to 10 (00_scope R9). -/
theorem resetPrio_sub_le {cfg : Config} {x : Source} {sub0 : Nat}
    (h : ((cfg.srcEntry x).resetPrio sub0).level = 2) : ((cfg.srcEntry x).resetPrio sub0).sub ≤ 10 := by
  cases he : cfg.srcEntry x with
  | fixed level sub =>
    rw [he] at h
    change level = 2 at h
    subst h
    exact srcEntry_level2 he
  | nibble r k =>
    rw [he] at h
    cases h

/-- Where neither flag is set, the test flag is fresh (40_intc R147). -/
theorem freshTest_of_flags_clear {s : State} (hpending : s.intc.pending = false) (htest : s.intc.test = false) :
    FreshTest s := by
  unfold FreshTest Passing
  rw [hpending, htest]
  simp

/-! ## The status register (10_state R22) -/

/-- With the spec's values and places, the fields `IMASK`, `BL`, `RB` and `MD` are all ones. -/
theorem bit_srReset_of_default_places {cfg : Config} (h : cfg.reset = defaultReset) (hmd : cfg.srMd = 30)
    (hrb : cfg.srRb = 29) (hbl : cfg.srBl = 28) (himask : cfg.srImask = 4) (v : Word) (j : Nat) :
    bit (srReset cfg v) j = (decide (j ∈ [4, 5, 6, 7, 28, 29, 30]) || bit v j) := by
  have hones : ∀ k < 4, defaultReset.imask.getLsbD k = true := by decide
  have hplace : decide (j ∈ [4, 5, 6, 7, 28, 29, 30]) =
      decide ((4 ≤ j ∧ j < 4 + 4) ∨ j = 28 ∨ j = 29 ∨ j = 30) := by
    rw [decide_eq_decide]
    simp only [List.mem_cons, List.not_mem_nil, or_false]
    omega
  rw [bit_srReset, h, hmd, hrb, hbl, himask, hplace]
  change (if 4 ≤ j ∧ j < 4 + 4 then defaultReset.imask.getLsbD (j - 4) else if j = 28 then true
    else if j = 29 then true else if j = 30 then true else bit v j) = _
  split
  · rename_i hin
    rw [hones _ (by omega)]
    simp [hin]
  · rename_i hout
    simp only [hout, false_or]
    split_ifs <;> simp [*]

/-- A second reset of the status register changes nothing. -/
theorem srReset_srReset (cfg : Config) (v : Word) : srReset cfg (srReset cfg v) = srReset cfg v := by
  refine BitVec.eq_of_getLsbD_eq fun j _ => ?_
  change bit (srReset cfg (srReset cfg v)) j = bit (srReset cfg v) j
  rw [bit_srReset, bit_srReset]
  split_ifs <;> rfl

/-! ## The statements -/

/-- Settles O6, part by part. -/
theorem resetInstalls : Obligations.ResetInstalls := by
  intro s
  refine ⟨resetBlock s, exec_reset s, rfl, fun i => resetBlock_cell_of_unnamed s, fun hs r => resetBlock_reg s r hs, rfl,
    ?prio, ?nmi, ?combined, ?discrete, ?faults, fun n => resetBlock_chan s n, fun n => resetBlock_timer s n, rfl, rfl, rfl,
    rfl, fun j => bit_srReset s.cfg s.cpu.sr j, fun hr => ?values⟩
  case prio =>
    intro x
    rw [resetBlock_prio]
    cases s.cfg.srcEntry x <;> rfl
  case nmi => rw [resetBlock_prio, srcEntry_nmi]; rfl
  case combined => intro k; rw [resetBlock_prio, srcEntry_irll]; rfl
  case discrete => intro i; rw [resetBlock_prio, srcEntry_irl]; rfl
  case faults =>
    intro x
    rw [resetBlock_prio]
    exact resetPrio_sub_le
  case values =>
    have hlines : ∀ i : Fin 4, defaultReset.irlLine[i] = false := fun i => Vector.getElem_replicate i.isLt
    refine ⟨fun hs r => ?registers, fun x => (congrArg (fun v => v.requesting[x]) hr).trans (defaultReset_requesting x),
      congrArg ResetValues.pending hr, congrArg ResetValues.test hr,
      fun i => (congrArg (fun v => v.irlLine[i]) hr).trans (hlines i), congrArg ResetValues.irlLevel hr,
      congrArg ResetValues.nmiLine hr, fun n => (resetBlock_chan s n).trans (congrArg ResetValues.dma hr),
      fun n => (resetBlock_timer s n).trans (congrArg ResetValues.tmu hr), congrArg ResetValues.refresh hr,
      congrArg ResetValues.gpio hr, congrArg ResetValues.sleep hr, fun hmd hrb hbl himask j => ?status⟩
    case registers => rw [resetBlock_reg s r hs, resetValue_of_default hr]
    case status => exact bit_srReset_of_default_places hr hmd hrb hbl himask s.cpu.sr j

/-- Settles O7: `RESET` a second time installs what stands there, the reset values being coherent. -/
theorem resetStateMeetsInvariant : Obligations.ResetStateMeetsInvariant := by
  have hfixed : resetBlock State.reset = State.reset :=
    congrArg (fun sr => { State.reset with cpu := { cpuReset with sr := sr } }) (srReset_srReset defaultConfig 0)
  have hinv : Inv (resetBlock State.reset) := inv_resetBlock coherent_default reset_mem_wf
  rw [hfixed] at hinv
  exact ⟨hinv, hfixed ▸ exec_reset State.reset⟩

/-- Settles O8: the spec's reset values are coherent; nothing requests, and no timer but the clock is armed. -/
theorem resetEstablishesInvariants : Obligations.ResetEstablishesInvariants := by
  intro s hmem hs hr
  have hc := coherent_of_default hs hr
  have hreg : ∀ r, (resetBlock s).reg r = s.cfg.resetValue r := fun r => resetBlock_reg s r hs
  have hpending : (resetBlock s).intc.pending = false := congrArg ResetValues.pending hr
  have htest : (resetBlock s).intc.test = false := congrArg ResetValues.test hr
  refine ⟨_, exec_reset s, inv_resetBlock hc hmem, hpending, fun x => ?requesting,
    freshTest_of_flags_clear hpending htest, htest, fun r k => ?nibbles, ?pctra, ?pctrb, fun n => ?idle, ?started, rfl,
    ?tstr, fun n => ?unarmed, ?stopped, hc.refresh.1⟩
  case requesting => exact (congrArg (fun v => v.requesting[x]) hr).trans (defaultReset_requesting x)
  case nibbles =>
    rw [hreg, hc.nibbles]
    exact congrArg ResetValues.peripheralSub hr
  case idle =>
    rw [resetBlock_chan, hr]
    rfl
  case started => rw [hreg, hc.rtc]
  case unarmed => rw [resetBlock_timer, hc.tmu.1]
  case stopped => rw [hreg, hc.refresh.2]
  case pctra | pctrb | tstr =>
    rw [hreg, resetValue_of_default hr]
    rfl

end Sys2Proof.Machine
end

section
/-! PROOF of `TimeCanAlwaysPass` (O46). An expiry leaves its own timer idle or due later, and no other timer is touched:
firing each timer that is due leaves none due, and then time may move by 1. -/
namespace Sys2Proof.Machine
open Sys2Proof

/-! ## A timer armed now is due later (42_timers R240) -/

theorem now_lt_of_armedTimer {s : State} {n : TmuChan} {tcnt tcr : Word} {d : Time} (hpclk : 0 < s.cfg.cycPerPclk)
    (hd : (armedTimer s n tcnt tcr).deadline = some d) : s.now < d := by
  unfold armedTimer at hd
  split at hd
  · cases hd
  · rename_i hdiv
    obtain rfl := Option.some.inj hd
    have hcount : 0 < max tcnt.toNat 1 := lt_max_of_lt_right Nat.one_pos
    exact Nat.lt_add_of_pos_right (Nat.mul_pos hcount (Nat.mul_pos (Nat.pos_of_ne_zero hdiv) hpclk))

theorem refTicks_pos (rtcor rtcnt : Word) : 0 < refTicks rtcor rtcnt := by
  unfold refTicks
  split <;> omega

/-- Only the clock select 0 stops the refresh timer. -/
theorem refDiv_pos : ∀ {cks : BitVec 3}, cks ≠ 0 → 0 < refDiv cks := by decide

theorem now_lt_of_armedRefresh {s : State} {rtcor rtcnt rtcsr : Word} {d : Time} (hbus : 0 < s.cfg.cycPerBus)
    (hcks : field rtcsr 3 3 ≠ 0) (hd : (armedRefresh s rtcor rtcnt rtcsr).deadline = some d) : s.now < d := by
  obtain rfl := Option.some.inj hd
  exact Nat.lt_add_of_pos_right (Nat.mul_pos (refTicks_pos rtcor rtcnt) (Nat.mul_pos (refDiv_pos hcks) hbus))

/-! ## The deadlines after an expiry -/

theorem dmaComplete_deadline (n : Chan) {s : State} (hs : s.cfg.separate = true) :
    ((dmaComplete n s).chan n).deadline = none := by
  have hended : ((dmaEnded n s).chan n).deadline = none := by
    simp only [dmaEnded, setReg_chan, setChan_chan_same]
  rw [dmaComplete_eq n hs, requestSource_eq]
  split <;> exact hended

theorem tmuExpire_timer (n : TmuChan) {s : State} (hs : s.cfg.separate = true) :
    (tmuExpire n s).timer n = armedTimer s n (s.reg (.tcor n)) (s.reg (.tcr n)) := by
  have hreloaded : (tmuReloaded n s).timer n = armedTimer s n (s.reg (.tcor n)) (s.reg (.tcr n)) :=
    setTimer_timer_same ..
  rw [tmuExpire_eq n hs, requestSource_eq]
  split <;> exact hreloaded

theorem refCount_refresh (s : State) : (refCount s).refresh = s.refresh := by
  unfold refCount
  split
  · dsimp only
    split <;> rfl
  · rfl

theorem refExpire_refresh {s : State} (hs : s.cfg.separate = true) :
    (refExpire s).refresh = armedRefresh s (s.reg .rtcor) 0 (s.reg .rtcsr) := by
  rw [refExpire_eq hs, refCount_refresh]
  rfl

/-- A timer that has fired is idle or due later. -/
theorem now_lt_deadlineOf_expire {s : State} (h : Inv s) (hpos : s.cfg.positive) {x : TimerId} {d0 d : Time}
    (hd0 : deadlineOf x s = some d0) (hd : deadlineOf x (expire x s) = some d) : s.now < d := by
  have hs := h.cfg.separate
  obtain ⟨hbus, hpclk, hrtc⟩ := hpos
  cases x with
  | dma n =>
    have hidle : deadlineOf (.dma n) (expire (.dma n) s) = none := dmaComplete_deadline n hs
    rw [hidle] at hd
    cases hd
  | tmu n =>
    change ((tmuExpire n s).timer n).deadline = some d at hd
    rw [tmuExpire_timer n hs] at hd
    exact now_lt_of_armedTimer hpclk hd
  | ref =>
    change (refExpire s).refresh.deadline = some d at hd
    rw [refExpire_refresh hs] at hd
    exact now_lt_of_armedRefresh hbus (refActive_iff.1 (refActive_of_deadline hd0 (h.part .refresh))) hd
  | rtc =>
    change (rtcExpire s).rtcDeadline = some d at hd
    change s.rtcDeadline = some d0 at hd0
    rw [rtcExpire_rtcDeadline, hd0] at hd
    obtain rfl := Option.some.inj hd
    have hlater : s.now ≤ d0 := noDeadlineBefore_iff.1 h.time .rtc d0 hd0
    exact Nat.lt_of_le_of_lt hlater (Nat.lt_add_of_pos_right hrtc)

/-- Of the units with a deadline, the effect of an expiry names the timer's own. -/
theorem expiryEffect_names (cfg : Config) (x : TimerId) :
    (∀ n, n ∈ (expiryEffect cfg x).chans → .dma n = x) ∧ (∀ n, n ∈ (expiryEffect cfg x).timers → .tmu n = x) ∧
    ((expiryEffect cfg x).refresh = true → .ref = x) ∧ ((expiryEffect cfg x).rtc = true → .rtc = x) := by
  cases x <;> simp [expiryEffect]

/-- An expiry leaves the deadlines of the other timers. -/
theorem deadlineOf_expire_of_ne {x y : TimerId} (hne : y ≠ x) (s : State) :
    deadlineOf y (expire x s) = deadlineOf y s := by
  have hw := within_expire x s
  obtain ⟨hdma, htmu, href, hrtc⟩ := expiryEffect_names s.cfg x
  cases y with
  | dma n => exact congrArg DmaChannel.deadline (hw.chans n (mt (hdma n) hne))
  | tmu n => exact congrArg TmuChannel.deadline (hw.timers n (mt (htmu n) hne))
  | ref => exact congrArg Refresh.deadline (hw.refresh (Bool.not_eq_true _ ▸ mt href hne))
  | rtc => exact hw.rtc (Bool.not_eq_true _ ▸ mt hrtc hne)

/-! ## Firing what is due -/

/-- After `FIRE` the timers that are due are those that were, but for the one fired. -/
theorem timerDue_fire_iff {s u : State} (h : Inv s) (hpos : s.cfg.positive) {x : TimerId}
    (hx : exec (.fire x) s = .next u) (y : TimerId) : timerDue y u = true ↔ y ≠ x ∧ timerDue y s = true := by
  obtain ⟨hdue, rfl⟩ := fire_next hx
  obtain ⟨d0, hd0, -⟩ := timerDue_iff.1 hdue
  have hnow : (expire x s).now = s.now := (within_expire x s).now
  rw [timerDue_iff, timerDue_iff, hnow]
  by_cases hy : y = x
  · subst hy
    have hlater : ∀ d, deadlineOf y (expire y s) = some d → ¬d ≤ s.now := fun d hd =>
      Nat.not_le.2 (now_lt_deadlineOf_expire h hpos hd0 hd)
    exact iff_of_false (fun ⟨d, hd, hle⟩ => hlater d hd hle) fun ⟨hne, _⟩ => hne rfl
  · rw [deadlineOf_expire_of_ne hy]
    exact (and_iff_right hy).symm

/-- Timers that are due fire one after the other, at one time; then none of them is due. -/
theorem fireAll_of_due {ts : List TimerId} (hnodup : ts.Nodup) {s : State} (h : Inv s) (hpos : s.cfg.positive)
    (hdue : ∀ x ∈ ts, timerDue x s = true) :
    ∃ u, fireAll ts s = .next u ∧ u.now = s.now ∧ ∀ y, timerDue y u = true → y ∉ ts ∧ timerDue y s = true := by
  induction ts generalizing s with
  | nil => exact ⟨s, rfl, rfl, fun y hy => ⟨List.not_mem_nil, hy⟩⟩
  | cons x ts ih =>
    obtain ⟨hx, hts⟩ := List.nodup_cons.1 hnodup
    obtain ⟨d, hd, hle⟩ := timerDue_iff.1 (hdue x List.mem_cons_self)
    have hfire : exec (.fire x) s = .next (expire x s) := fire_of_due hd hle
    have hw := within_expire x s
    have hrest : ∀ y ∈ ts, timerDue y (expire x s) = true := fun y hy =>
      (timerDue_fire_iff h hpos hfire y).2 ⟨fun e => hx (e ▸ hy), hdue y (List.mem_cons_of_mem x hy)⟩
    obtain ⟨u, hu, hnow, hleft⟩ := ih hts (inv_fire h hfire) (hw.cfg ▸ hpos) hrest
    refine ⟨u, ?_, hnow.trans hw.now, fun y hy => ?_⟩
    · rw [fireAll, hfire]
      exact hu
    · obtain ⟨hmem, hbefore⟩ := hleft y hy
      obtain ⟨hne, hy'⟩ := (timerDue_fire_iff h hpos hfire y).1 hbefore
      exact ⟨List.not_mem_cons_of_ne_of_not_mem hne hmem, hy'⟩

/-- Where no timer is due, time may move by 1. -/
theorem advanceEnabled_of_none_due {s : State} (h : ∀ t, ¬timerDue t s = true) : advanceEnabled 1 s = true :=
  advanceEnabled_iff.2 ⟨le_rfl, fun t d hd => Nat.lt_of_not_le fun hle => h t (timerDue_iff.2 ⟨d, hd, hle⟩)⟩

/-- Settles O46: the timers to fire are those that are due. -/
theorem timeCanAlwaysPass : Obligations.TimeCanAlwaysPass := by
  intro s h hpos
  refine ⟨fun t u hu => Bool.not_eq_true _ ▸ fun hdue => ((timerDue_fire_iff h hpos hu t).1 hdue).1 rfl, ?_⟩
  have hnodup : (allTimers.filter (timerDue · s)).Nodup := List.Nodup.filter _ (by decide)
  obtain ⟨u, hu, hnow, hleft⟩ := fireAll_of_due hnodup h hpos fun x hx => (List.mem_filter.1 hx).2
  have hnone : ∀ t, ¬timerDue t u = true := fun t ht => by
    obtain ⟨hmem, hdue⟩ := hleft t ht
    exact hmem (List.mem_filter.2 ⟨mem_allTimers t, hdue⟩)
  refine ⟨_, u, _, hnodup, List.length_filter_le .., hu, hnow,
    exec_advance_of_enabled (advanceEnabled_of_none_due hnone), ?_⟩
  change u.now + 1 = s.now + 1
  rw [hnow]

end Sys2Proof.Machine
end
